-- ==== Sys2Proof/Word.lean ====
section
/-! DEFINITION. The two widths of the machine (R7): a byte and a 16-bit address. -/

namespace Sys2Proof

/-- Eight bits: A, X, Y, SP, P, and one cell of memory (R7). -/
abbrev Byte := BitVec 8

/-- Sixteen bits: PC and every bus address (R7, R60). -/
abbrev Addr := BitVec 16

end Sys2Proof
end

