-- ==== Sys2Proof/Machine/Bits.lean ====
section
/-! DEFINITION. Byte order, byte and page fields, extension, and single bits of a byte (R10). -/

namespace Sys2Proof

/-- `hi ++ lo`: the 16-bit value `hi*256 + lo` (R10). -/
def word (hi lo : Byte) : Addr := BitVec.ofNat 16 (hi.toNat * 256 + lo.toNat)

/-- A 16-bit value from its two bytes in memory order, the low byte first (R66, R104). -/
def addrOf (first second : Byte) : Addr := word second first

/-- `a[7:0]`. -/
def loByte (a : Addr) : Byte := BitVec.ofNat 8 (a.toNat % 256)

/-- `a[15:8]`: the page of an address (R17). -/
def hiByte (a : Addr) : Byte := BitVec.ofNat 8 (a.toNat / 256)

/-- `sext_16` (R10). -/
def sext16 (v : Byte) : Addr := v.signExtend 16

/-- `zext_16` (R10). -/
def zext16 (v : Byte) : Addr := v.setWidth 16

/-- `cross(base, EA)`: the two addresses lie in different pages (R155). -/
def cross (base ea : Addr) : Bool := hiByte base != hiByte ea

/-- The byte `v` with bit `i` replaced by `b`. -/
def setBit (v : Byte) (i : Nat) (b : Bool) : Byte :=
  if b then v ||| BitVec.twoPow 8 i else v &&& ~~~(BitVec.twoPow 8 i)

/-- A flag as a number, 0 or 1. -/
def bitNat (b : Bool) : Nat := if b then 1 else 0

end Sys2Proof
end

