-- ==== Sys2Proof/Config.lean ====
section
/-! DEFINITION. The named parameters of R8 and the one free value of the model. -/

namespace Sys2Proof

/-- The parameters that R8 makes configuration arguments of the model. A machine carries one value of this type and no
step changes it. The values the spec takes are `Config.spec` (Machine/Defaults.lean). `INIT_MEM`, the last parameter of
R8, is the memory of the state itself. -/
structure Config where
  /-- `RESET_SP`: SP after reset (R560, D6). -/
  resetSp : Byte
  /-- `RESET_P`: P after reset; bit 5 is ORed in when it is written (R560, D7). -/
  resetP : Byte
  /-- `RESET_VECTOR`: address of the low byte of the reset vector (R560, D4). -/
  resetVector : Addr
  /-- `IRQ_VECTOR`: address of the low byte of the BRK vector (R391, D5). -/
  irqVector : Addr
  /-- `STACK_PAGE`: high byte of every stack address (R24, D3). -/
  stackPage : Byte
  /-- `UNDEF_CYCLES`: cycles charged for an undefined opcode (R470, U14). -/
  undefCycles : Nat
  /-- `IO_ADDRS`: the addresses the host intercepts (R64, D27). -/
  ioAddrs : List Addr
  deriving DecidableEq, Repr

/-- The host's `n`-th free byte: what it answers to a read of an intercepted address, or what it leaves in memory at such
an address after a write (R64, U5, U6: any value). It has no body, so nothing can be proved about its value (log 2). -/
opaque Config.hostByte : Nat → Byte

end Sys2Proof
end

