-- ==== Sys2Proof/Syntax.lean ====
section
/-! DEFINITION. The instructions as data. Each of the 151 defined rows of spec/opcode_table.json is one constructor of
`Instr` together with one form of its operand type; the operand types hold exactly the modes R122 gives the mnemonic, so
a pair without an opcode cannot be written down. The 105 undefined rows are `Instr.undef` (log 15). -/

namespace Sys2Proof

/-- The thirteen addressing modes (R18, R140). -/
inductive Mode where
  | imp | acc | imm | zp | zpx | zpy | abs | abx | aby | ind | izx | izy | rel
  deriving DecidableEq, Repr

/-- An operand in one of the eleven modes that have an effective address, with the operand bytes the instruction carries
(R103, R104). IMP and ACC signal "no address" and have no operand (R142, R143). -/
inductive Operand where
  /-- Immediate: the literal (R144). -/
  | imm (v : Byte)
  /-- Zero page (R145). -/
  | zp (z : Byte)
  /-- Zero page, X (R146). -/
  | zpx (z : Byte)
  /-- Zero page, Y (R147). -/
  | zpy (z : Byte)
  /-- Absolute (R148). -/
  | abs (a : Addr)
  /-- Absolute, X (R149). -/
  | abx (a : Addr)
  /-- Absolute, Y (R150). -/
  | aby (a : Addr)
  /-- Indirect: the address of the pointer (R151). -/
  | ind (a : Addr)
  /-- Indexed-indirect, (zp,X) (R152). -/
  | izx (z : Byte)
  /-- Indirect-indexed, (zp),Y (R153). -/
  | izy (z : Byte)
  /-- Relative: the signed displacement (R154). -/
  | rel (d : Byte)
  deriving DecidableEq, Repr

/-- The operand forms of LDA, ADC, SBC, CMP, AND, ORA and EOR (R201, R270-R272, R275-R277, R122). -/
inductive ReadOp where
  | imm (v : Byte)
  | zp (z : Byte)
  | zpx (z : Byte)
  | abs (a : Addr)
  | abx (a : Addr)
  | aby (a : Addr)
  | izx (z : Byte)
  | izy (z : Byte)
  deriving DecidableEq, Repr

/-- The operand forms of LDX (R202, R122). -/
inductive LdxOp where
  | imm (v : Byte)
  | zp (z : Byte)
  | zpy (z : Byte)
  | abs (a : Addr)
  | aby (a : Addr)
  deriving DecidableEq, Repr

/-- The operand forms of LDY (R203, R122). -/
inductive LdyOp where
  | imm (v : Byte)
  | zp (z : Byte)
  | zpx (z : Byte)
  | abs (a : Addr)
  | abx (a : Addr)
  deriving DecidableEq, Repr

/-- The operand forms of STA (R204, R122). -/
inductive StaOp where
  | zp (z : Byte)
  | zpx (z : Byte)
  | abs (a : Addr)
  | abx (a : Addr)
  | aby (a : Addr)
  | izx (z : Byte)
  | izy (z : Byte)
  deriving DecidableEq, Repr

/-- The operand forms of STX (R205, R122). -/
inductive StxOp where
  | zp (z : Byte)
  | zpy (z : Byte)
  | abs (a : Addr)
  deriving DecidableEq, Repr

/-- The operand forms of STY (R206, R122). -/
inductive StyOp where
  | zp (z : Byte)
  | zpx (z : Byte)
  | abs (a : Addr)
  deriving DecidableEq, Repr

/-- The operand forms of CPX and CPY (R273, R274, R122). -/
inductive CpxOp where
  | imm (v : Byte)
  | zp (z : Byte)
  | abs (a : Addr)
  deriving DecidableEq, Repr

/-- The operand forms of BIT (R278, R122). -/
inductive BitOp where
  | zp (z : Byte)
  | abs (a : Addr)
  deriving DecidableEq, Repr

/-- The operand forms of ASL, LSR, ROL and ROR (R322-R325, R122). -/
inductive ShiftOp where
  | zp (z : Byte)
  | zpx (z : Byte)
  | abs (a : Addr)
  | abx (a : Addr)
  | acc
  deriving DecidableEq, Repr

/-- The operand forms of INC and DEC (R326, R327, R122). -/
inductive IncOp where
  | zp (z : Byte)
  | zpx (z : Byte)
  | abs (a : Addr)
  | abx (a : Addr)
  deriving DecidableEq, Repr

/-- The operand forms of JMP (R387, R122). -/
inductive JmpOp where
  | abs (a : Addr)
  | ind (a : Addr)
  deriving DecidableEq, Repr

/-- The mnemonics of spec/opcode_table.json. -/
inductive Mnemonic where
  | lda | ldx | ldy | sta | stx | sty | tax | tay | txa | tya | tsx | txs
  | adc | sbc | cmp | cpx | cpy | and | ora | eor | bit | asl | lsr | rol
  | ror | inc | dec | inx | iny | dex | dey | pha | php | pla | plp | jmp
  | jsr | rts | rti | brk | bpl | bmi | bvc | bvs | bcc | bcs | bne | beq
  | clc | sec | cli | sei | cld | sed | clv | nop
  | undef
  deriving DecidableEq, Repr

/-- The instruction set (R2, R122, R125). -/
inductive Instr where
  /-- LDA: load accumulator (R201). -/
  | lda (o : ReadOp)
  /-- LDX: load X (R202). -/
  | ldx (o : LdxOp)
  /-- LDY: load Y (R203). -/
  | ldy (o : LdyOp)
  /-- STA: store accumulator (R204). -/
  | sta (o : StaOp)
  /-- STX: store X (R205). -/
  | stx (o : StxOp)
  /-- STY: store Y (R206). -/
  | sty (o : StyOp)
  /-- TAX: transfer A to X (R207). -/
  | tax
  /-- TAY: transfer A to Y (R208). -/
  | tay
  /-- TXA: transfer X to A (R209). -/
  | txa
  /-- TYA: transfer Y to A (R210). -/
  | tya
  /-- TSX: transfer SP to X (R211). -/
  | tsx
  /-- TXS: transfer X to SP (R212). -/
  | txs
  /-- ADC: add with carry (R270). -/
  | adc (o : ReadOp)
  /-- SBC: subtract with borrow (R271). -/
  | sbc (o : ReadOp)
  /-- CMP: compare with accumulator (R272). -/
  | cmp (o : ReadOp)
  /-- CPX: compare with X (R273). -/
  | cpx (o : CpxOp)
  /-- CPY: compare with Y (R274). -/
  | cpy (o : CpxOp)
  /-- AND: bitwise AND with accumulator (R275). -/
  | and (o : ReadOp)
  /-- ORA: bitwise OR with accumulator (R276). -/
  | ora (o : ReadOp)
  /-- EOR: bitwise exclusive OR with accumulator (R277). -/
  | eor (o : ReadOp)
  /-- BIT: test bits (R278). -/
  | bit (o : BitOp)
  /-- ASL: arithmetic shift left (R322). -/
  | asl (o : ShiftOp)
  /-- LSR: logical shift right (R323). -/
  | lsr (o : ShiftOp)
  /-- ROL: rotate left through carry (R324). -/
  | rol (o : ShiftOp)
  /-- ROR: rotate right through carry (R325). -/
  | ror (o : ShiftOp)
  /-- INC: increment memory (R326). -/
  | inc (o : IncOp)
  /-- DEC: decrement memory (R327). -/
  | dec (o : IncOp)
  /-- INX: increment X (R328). -/
  | inx
  /-- INY: increment Y (R329). -/
  | iny
  /-- DEX: decrement X (R330). -/
  | dex
  /-- DEY: decrement Y (R331). -/
  | dey
  /-- PHA: push accumulator (R383). -/
  | pha
  /-- PHP: push status (R384). -/
  | php
  /-- PLA: pull accumulator (R385). -/
  | pla
  /-- PLP: pull status (R386). -/
  | plp
  /-- JMP: jump (R387). -/
  | jmp (o : JmpOp)
  /-- JSR: jump to subroutine (R388). -/
  | jsr (a : Addr)
  /-- RTS: return from subroutine (R389). -/
  | rts
  /-- RTI: return from interrupt (R390). -/
  | rti
  /-- BRK: software interrupt (R391). -/
  | brk
  /-- BPL: branch if plus (R394). -/
  | bpl (d : Byte)
  /-- BMI: branch if minus (R395). -/
  | bmi (d : Byte)
  /-- BVC: branch if overflow clear (R396). -/
  | bvc (d : Byte)
  /-- BVS: branch if overflow set (R397). -/
  | bvs (d : Byte)
  /-- BCC: branch if carry clear (R398). -/
  | bcc (d : Byte)
  /-- BCS: branch if carry set (R399). -/
  | bcs (d : Byte)
  /-- BNE: branch if not equal (R400). -/
  | bne (d : Byte)
  /-- BEQ: branch if equal (R401). -/
  | beq (d : Byte)
  /-- CLC: clear carry (R460). -/
  | clc
  /-- SEC: set carry (R461). -/
  | sec
  /-- CLI: clear interrupt-disable (R462). -/
  | cli
  /-- SEI: set interrupt-disable (R463). -/
  | sei
  /-- CLD: clear decimal (R464). -/
  | cld
  /-- SED: set decimal (R465). -/
  | sed
  /-- CLV: clear overflow (R466). -/
  | clv
  /-- NOP: no operation (R467). -/
  | nop
  /-- UNDEF: one of the 105 undefined opcode bytes, `op` (R125, R470). -/
  | undef (op : Byte)
  deriving DecidableEq, Repr

/-- The mnemonic of an instruction's opcode-table row. -/
def Instr.mnemonic : Instr → Mnemonic
  | .lda _ => .lda
  | .ldx _ => .ldx
  | .ldy _ => .ldy
  | .sta _ => .sta
  | .stx _ => .stx
  | .sty _ => .sty
  | .tax => .tax
  | .tay => .tay
  | .txa => .txa
  | .tya => .tya
  | .tsx => .tsx
  | .txs => .txs
  | .adc _ => .adc
  | .sbc _ => .sbc
  | .cmp _ => .cmp
  | .cpx _ => .cpx
  | .cpy _ => .cpy
  | .and _ => .and
  | .ora _ => .ora
  | .eor _ => .eor
  | .bit _ => .bit
  | .asl _ => .asl
  | .lsr _ => .lsr
  | .rol _ => .rol
  | .ror _ => .ror
  | .inc _ => .inc
  | .dec _ => .dec
  | .inx => .inx
  | .iny => .iny
  | .dex => .dex
  | .dey => .dey
  | .pha => .pha
  | .php => .php
  | .pla => .pla
  | .plp => .plp
  | .jmp _ => .jmp
  | .jsr _ => .jsr
  | .rts => .rts
  | .rti => .rti
  | .brk => .brk
  | .bpl _ => .bpl
  | .bmi _ => .bmi
  | .bvc _ => .bvc
  | .bvs _ => .bvs
  | .bcc _ => .bcc
  | .bcs _ => .bcs
  | .bne _ => .bne
  | .beq _ => .beq
  | .clc => .clc
  | .sec => .sec
  | .cli => .cli
  | .sei => .sei
  | .cld => .cld
  | .sed => .sed
  | .clv => .clv
  | .nop => .nop
  | .undef _ => .undef

end Sys2Proof
end

