-- ==== Sys2Proof/Decode.lean ====
section
/-! DEFINITION. The opcode table (R120, R591), the decoder, and the encoder written from R122. -/

namespace Sys2Proof

/-! ### Operands -/

/-- The number of operand bytes of a mode (R101). -/
def Mode.operandBytes : Mode → Nat
  | .imp | .acc => 0
  | .imm | .zp | .zpx | .zpy | .izx | .izy | .rel => 1
  | .abs | .abx | .aby | .ind => 2

/-- The mode of an operand. -/
def Operand.mode : Operand → Mode
  | .imm _ => .imm
  | .zp _ => .zp
  | .zpx _ => .zpx
  | .zpy _ => .zpy
  | .abs _ => .abs
  | .abx _ => .abx
  | .aby _ => .aby
  | .ind _ => .ind
  | .izx _ => .izx
  | .izy _ => .izy
  | .rel _ => .rel

/-- The operand bytes in the order of their addresses, a 16-bit operand low byte first (R103, R104). -/
def Operand.bytes : Operand → List Byte
  | .imm b | .zp b | .zpx b | .zpy b | .izx b | .izy b | .rel b => [b]
  | .abs a | .abx a | .aby a | .ind a => [loByte a, hiByte a]

/-- The operand of LDA, ADC, SBC, CMP, AND, ORA and EOR. -/
def ReadOp.operand : ReadOp → Operand
  | .imm v => .imm v
  | .zp z => .zp z
  | .zpx z => .zpx z
  | .abs a => .abs a
  | .abx a => .abx a
  | .aby a => .aby a
  | .izx z => .izx z
  | .izy z => .izy z

/-- The operand of LDX. -/
def LdxOp.operand : LdxOp → Operand
  | .imm v => .imm v
  | .zp z => .zp z
  | .zpy z => .zpy z
  | .abs a => .abs a
  | .aby a => .aby a

/-- The operand of LDY. -/
def LdyOp.operand : LdyOp → Operand
  | .imm v => .imm v
  | .zp z => .zp z
  | .zpx z => .zpx z
  | .abs a => .abs a
  | .abx a => .abx a

/-- The operand of STA. -/
def StaOp.operand : StaOp → Operand
  | .zp z => .zp z
  | .zpx z => .zpx z
  | .abs a => .abs a
  | .abx a => .abx a
  | .aby a => .aby a
  | .izx z => .izx z
  | .izy z => .izy z

/-- The operand of STX. -/
def StxOp.operand : StxOp → Operand
  | .zp z => .zp z
  | .zpy z => .zpy z
  | .abs a => .abs a

/-- The operand of STY. -/
def StyOp.operand : StyOp → Operand
  | .zp z => .zp z
  | .zpx z => .zpx z
  | .abs a => .abs a

/-- The operand of CPX and CPY. -/
def CpxOp.operand : CpxOp → Operand
  | .imm v => .imm v
  | .zp z => .zp z
  | .abs a => .abs a

/-- The operand of BIT. -/
def BitOp.operand : BitOp → Operand
  | .zp z => .zp z
  | .abs a => .abs a

/-- The operand of a shift, absent in ACC mode (R143). -/
def ShiftOp.operand : ShiftOp → Option Operand
  | .zp z => some (.zp z)
  | .zpx z => some (.zpx z)
  | .abs a => some (.abs a)
  | .abx a => some (.abx a)
  | .acc => none

/-- The operand of INC and DEC. -/
def IncOp.operand : IncOp → Operand
  | .zp z => .zp z
  | .zpx z => .zpx z
  | .abs a => .abs a
  | .abx a => .abx a

/-- The operand of JMP. -/
def JmpOp.operand : JmpOp → Operand
  | .abs a => .abs a
  | .ind a => .ind a

/-- The operand of an instruction, absent in IMP and ACC mode. -/
def Instr.operand : Instr → Option Operand
  | .lda o => some o.operand
  | .ldx o => some o.operand
  | .ldy o => some o.operand
  | .sta o => some o.operand
  | .stx o => some o.operand
  | .sty o => some o.operand
  | .adc o => some o.operand
  | .sbc o => some o.operand
  | .cmp o => some o.operand
  | .cpx o => some o.operand
  | .cpy o => some o.operand
  | .and o => some o.operand
  | .ora o => some o.operand
  | .eor o => some o.operand
  | .bit o => some o.operand
  | .asl o => o.operand
  | .lsr o => o.operand
  | .rol o => o.operand
  | .ror o => o.operand
  | .inc o => some o.operand
  | .dec o => some o.operand
  | .jmp o => some o.operand
  | .jsr a => some (.abs a)
  | .bpl d => some (.rel d)
  | .bmi d => some (.rel d)
  | .bvc d => some (.rel d)
  | .bvs d => some (.rel d)
  | .bcc d => some (.rel d)
  | .bcs d => some (.rel d)
  | .bne d => some (.rel d)
  | .beq d => some (.rel d)
  | .tax | .tay | .txa | .tya | .tsx | .txs | .inx | .iny
  | .dex | .dey | .pha | .php | .pla | .plp | .rts | .rti
  | .brk | .clc | .sec | .cli | .sei | .cld | .sed | .clv
  | .nop => none
  | .undef _ => none

/-- The addressing mode of an instruction's opcode-table row. -/
def Instr.mode (i : Instr) : Mode :=
  match i.operand with
  | some o => o.mode
  | none =>
    match i with
    | .asl _ | .lsr _ | .rol _ | .ror _ => .acc
    | _ => .imp

/-! ### The opcode table -/

/-- The extra-cycle class of a row (R120): none, +1 on a page crossing (R156), or the branch rule (R393). -/
inductive ExtraCycles where
  | none | page | branch
  deriving DecidableEq, Repr

/-- One row of the opcode table (R120): opcode byte, mnemonic, mode, base cycle count, extra-cycle class. -/
structure OpcodeRow where
  opcode : Byte
  mnemonic : Mnemonic
  mode : Mode
  cycles : Nat
  extra : ExtraCycles
  deriving DecidableEq, Repr

/-- The defined rows of opcode bytes 0x00 to 0x0F (R121, R591). -/
def opcodeRows0 : List OpcodeRow := [
  ⟨0x00, .brk, .imp, 7, .none⟩,
  ⟨0x01, .ora, .izx, 6, .none⟩,
  ⟨0x05, .ora, .zp, 3, .none⟩,
  ⟨0x06, .asl, .zp, 5, .none⟩,
  ⟨0x08, .php, .imp, 3, .none⟩,
  ⟨0x09, .ora, .imm, 2, .none⟩,
  ⟨0x0A, .asl, .acc, 2, .none⟩,
  ⟨0x0D, .ora, .abs, 4, .none⟩,
  ⟨0x0E, .asl, .abs, 6, .none⟩]

/-- The defined rows of opcode bytes 0x10 to 0x1F (R121, R591). -/
def opcodeRows1 : List OpcodeRow := [
  ⟨0x10, .bpl, .rel, 2, .branch⟩,
  ⟨0x11, .ora, .izy, 5, .page⟩,
  ⟨0x15, .ora, .zpx, 4, .none⟩,
  ⟨0x16, .asl, .zpx, 6, .none⟩,
  ⟨0x18, .clc, .imp, 2, .none⟩,
  ⟨0x19, .ora, .aby, 4, .page⟩,
  ⟨0x1D, .ora, .abx, 4, .page⟩,
  ⟨0x1E, .asl, .abx, 7, .none⟩]

/-- The defined rows of opcode bytes 0x20 to 0x2F (R121, R591). -/
def opcodeRows2 : List OpcodeRow := [
  ⟨0x20, .jsr, .abs, 6, .none⟩,
  ⟨0x21, .and, .izx, 6, .none⟩,
  ⟨0x24, .bit, .zp, 3, .none⟩,
  ⟨0x25, .and, .zp, 3, .none⟩,
  ⟨0x26, .rol, .zp, 5, .none⟩,
  ⟨0x28, .plp, .imp, 4, .none⟩,
  ⟨0x29, .and, .imm, 2, .none⟩,
  ⟨0x2A, .rol, .acc, 2, .none⟩,
  ⟨0x2C, .bit, .abs, 4, .none⟩,
  ⟨0x2D, .and, .abs, 4, .none⟩,
  ⟨0x2E, .rol, .abs, 6, .none⟩]

/-- The defined rows of opcode bytes 0x30 to 0x3F (R121, R591). -/
def opcodeRows3 : List OpcodeRow := [
  ⟨0x30, .bmi, .rel, 2, .branch⟩,
  ⟨0x31, .and, .izy, 5, .page⟩,
  ⟨0x35, .and, .zpx, 4, .none⟩,
  ⟨0x36, .rol, .zpx, 6, .none⟩,
  ⟨0x38, .sec, .imp, 2, .none⟩,
  ⟨0x39, .and, .aby, 4, .page⟩,
  ⟨0x3D, .and, .abx, 4, .page⟩,
  ⟨0x3E, .rol, .abx, 7, .none⟩]

/-- The defined rows of opcode bytes 0x40 to 0x4F (R121, R591). -/
def opcodeRows4 : List OpcodeRow := [
  ⟨0x40, .rti, .imp, 6, .none⟩,
  ⟨0x41, .eor, .izx, 6, .none⟩,
  ⟨0x45, .eor, .zp, 3, .none⟩,
  ⟨0x46, .lsr, .zp, 5, .none⟩,
  ⟨0x48, .pha, .imp, 3, .none⟩,
  ⟨0x49, .eor, .imm, 2, .none⟩,
  ⟨0x4A, .lsr, .acc, 2, .none⟩,
  ⟨0x4C, .jmp, .abs, 3, .none⟩,
  ⟨0x4D, .eor, .abs, 4, .none⟩,
  ⟨0x4E, .lsr, .abs, 6, .none⟩]

/-- The defined rows of opcode bytes 0x50 to 0x5F (R121, R591). -/
def opcodeRows5 : List OpcodeRow := [
  ⟨0x50, .bvc, .rel, 2, .branch⟩,
  ⟨0x51, .eor, .izy, 5, .page⟩,
  ⟨0x55, .eor, .zpx, 4, .none⟩,
  ⟨0x56, .lsr, .zpx, 6, .none⟩,
  ⟨0x58, .cli, .imp, 2, .none⟩,
  ⟨0x59, .eor, .aby, 4, .page⟩,
  ⟨0x5D, .eor, .abx, 4, .page⟩,
  ⟨0x5E, .lsr, .abx, 7, .none⟩]

/-- The defined rows of opcode bytes 0x60 to 0x6F (R121, R591). -/
def opcodeRows6 : List OpcodeRow := [
  ⟨0x60, .rts, .imp, 6, .none⟩,
  ⟨0x61, .adc, .izx, 6, .none⟩,
  ⟨0x65, .adc, .zp, 3, .none⟩,
  ⟨0x66, .ror, .zp, 5, .none⟩,
  ⟨0x68, .pla, .imp, 4, .none⟩,
  ⟨0x69, .adc, .imm, 2, .none⟩,
  ⟨0x6A, .ror, .acc, 2, .none⟩,
  ⟨0x6C, .jmp, .ind, 5, .none⟩,
  ⟨0x6D, .adc, .abs, 4, .none⟩,
  ⟨0x6E, .ror, .abs, 6, .none⟩]

/-- The defined rows of opcode bytes 0x70 to 0x7F (R121, R591). -/
def opcodeRows7 : List OpcodeRow := [
  ⟨0x70, .bvs, .rel, 2, .branch⟩,
  ⟨0x71, .adc, .izy, 5, .page⟩,
  ⟨0x75, .adc, .zpx, 4, .none⟩,
  ⟨0x76, .ror, .zpx, 6, .none⟩,
  ⟨0x78, .sei, .imp, 2, .none⟩,
  ⟨0x79, .adc, .aby, 4, .page⟩,
  ⟨0x7D, .adc, .abx, 4, .page⟩,
  ⟨0x7E, .ror, .abx, 7, .none⟩]

/-- The defined rows of opcode bytes 0x80 to 0x8F (R121, R591). -/
def opcodeRows8 : List OpcodeRow := [
  ⟨0x81, .sta, .izx, 6, .none⟩,
  ⟨0x84, .sty, .zp, 3, .none⟩,
  ⟨0x85, .sta, .zp, 3, .none⟩,
  ⟨0x86, .stx, .zp, 3, .none⟩,
  ⟨0x88, .dey, .imp, 2, .none⟩,
  ⟨0x8A, .txa, .imp, 2, .none⟩,
  ⟨0x8C, .sty, .abs, 4, .none⟩,
  ⟨0x8D, .sta, .abs, 4, .none⟩,
  ⟨0x8E, .stx, .abs, 4, .none⟩]

/-- The defined rows of opcode bytes 0x90 to 0x9F (R121, R591). -/
def opcodeRows9 : List OpcodeRow := [
  ⟨0x90, .bcc, .rel, 2, .branch⟩,
  ⟨0x91, .sta, .izy, 6, .none⟩,
  ⟨0x94, .sty, .zpx, 4, .none⟩,
  ⟨0x95, .sta, .zpx, 4, .none⟩,
  ⟨0x96, .stx, .zpy, 4, .none⟩,
  ⟨0x98, .tya, .imp, 2, .none⟩,
  ⟨0x99, .sta, .aby, 5, .none⟩,
  ⟨0x9A, .txs, .imp, 2, .none⟩,
  ⟨0x9D, .sta, .abx, 5, .none⟩]

/-- The defined rows of opcode bytes 0xA0 to 0xAF (R121, R591). -/
def opcodeRowsA : List OpcodeRow := [
  ⟨0xA0, .ldy, .imm, 2, .none⟩,
  ⟨0xA1, .lda, .izx, 6, .none⟩,
  ⟨0xA2, .ldx, .imm, 2, .none⟩,
  ⟨0xA4, .ldy, .zp, 3, .none⟩,
  ⟨0xA5, .lda, .zp, 3, .none⟩,
  ⟨0xA6, .ldx, .zp, 3, .none⟩,
  ⟨0xA8, .tay, .imp, 2, .none⟩,
  ⟨0xA9, .lda, .imm, 2, .none⟩,
  ⟨0xAA, .tax, .imp, 2, .none⟩,
  ⟨0xAC, .ldy, .abs, 4, .none⟩,
  ⟨0xAD, .lda, .abs, 4, .none⟩,
  ⟨0xAE, .ldx, .abs, 4, .none⟩]

/-- The defined rows of opcode bytes 0xB0 to 0xBF (R121, R591). -/
def opcodeRowsB : List OpcodeRow := [
  ⟨0xB0, .bcs, .rel, 2, .branch⟩,
  ⟨0xB1, .lda, .izy, 5, .page⟩,
  ⟨0xB4, .ldy, .zpx, 4, .none⟩,
  ⟨0xB5, .lda, .zpx, 4, .none⟩,
  ⟨0xB6, .ldx, .zpy, 4, .none⟩,
  ⟨0xB8, .clv, .imp, 2, .none⟩,
  ⟨0xB9, .lda, .aby, 4, .page⟩,
  ⟨0xBA, .tsx, .imp, 2, .none⟩,
  ⟨0xBC, .ldy, .abx, 4, .page⟩,
  ⟨0xBD, .lda, .abx, 4, .page⟩,
  ⟨0xBE, .ldx, .aby, 4, .page⟩]

/-- The defined rows of opcode bytes 0xC0 to 0xCF (R121, R591). -/
def opcodeRowsC : List OpcodeRow := [
  ⟨0xC0, .cpy, .imm, 2, .none⟩,
  ⟨0xC1, .cmp, .izx, 6, .none⟩,
  ⟨0xC4, .cpy, .zp, 3, .none⟩,
  ⟨0xC5, .cmp, .zp, 3, .none⟩,
  ⟨0xC6, .dec, .zp, 5, .none⟩,
  ⟨0xC8, .iny, .imp, 2, .none⟩,
  ⟨0xC9, .cmp, .imm, 2, .none⟩,
  ⟨0xCA, .dex, .imp, 2, .none⟩,
  ⟨0xCC, .cpy, .abs, 4, .none⟩,
  ⟨0xCD, .cmp, .abs, 4, .none⟩,
  ⟨0xCE, .dec, .abs, 6, .none⟩]

/-- The defined rows of opcode bytes 0xD0 to 0xDF (R121, R591). -/
def opcodeRowsD : List OpcodeRow := [
  ⟨0xD0, .bne, .rel, 2, .branch⟩,
  ⟨0xD1, .cmp, .izy, 5, .page⟩,
  ⟨0xD5, .cmp, .zpx, 4, .none⟩,
  ⟨0xD6, .dec, .zpx, 6, .none⟩,
  ⟨0xD8, .cld, .imp, 2, .none⟩,
  ⟨0xD9, .cmp, .aby, 4, .page⟩,
  ⟨0xDD, .cmp, .abx, 4, .page⟩,
  ⟨0xDE, .dec, .abx, 7, .none⟩]

/-- The defined rows of opcode bytes 0xE0 to 0xEF (R121, R591). -/
def opcodeRowsE : List OpcodeRow := [
  ⟨0xE0, .cpx, .imm, 2, .none⟩,
  ⟨0xE1, .sbc, .izx, 6, .none⟩,
  ⟨0xE4, .cpx, .zp, 3, .none⟩,
  ⟨0xE5, .sbc, .zp, 3, .none⟩,
  ⟨0xE6, .inc, .zp, 5, .none⟩,
  ⟨0xE8, .inx, .imp, 2, .none⟩,
  ⟨0xE9, .sbc, .imm, 2, .none⟩,
  ⟨0xEA, .nop, .imp, 2, .none⟩,
  ⟨0xEC, .cpx, .abs, 4, .none⟩,
  ⟨0xED, .sbc, .abs, 4, .none⟩,
  ⟨0xEE, .inc, .abs, 6, .none⟩]

/-- The defined rows of opcode bytes 0xF0 to 0xFF (R121, R591). -/
def opcodeRowsF : List OpcodeRow := [
  ⟨0xF0, .beq, .rel, 2, .branch⟩,
  ⟨0xF1, .sbc, .izy, 5, .page⟩,
  ⟨0xF5, .sbc, .zpx, 4, .none⟩,
  ⟨0xF6, .inc, .zpx, 6, .none⟩,
  ⟨0xF8, .sed, .imp, 2, .none⟩,
  ⟨0xF9, .sbc, .aby, 4, .page⟩,
  ⟨0xFD, .sbc, .abx, 4, .page⟩,
  ⟨0xFE, .inc, .abx, 7, .none⟩]

/-- The defined rows whose opcode byte has the high digit `hi`. -/
def opcodeRowsOf (hi : Nat) : List OpcodeRow :=
  match hi with
  | 0 => opcodeRows0
  | 1 => opcodeRows1
  | 2 => opcodeRows2
  | 3 => opcodeRows3
  | 4 => opcodeRows4
  | 5 => opcodeRows5
  | 6 => opcodeRows6
  | 7 => opcodeRows7
  | 8 => opcodeRows8
  | 9 => opcodeRows9
  | 10 => opcodeRowsA
  | 11 => opcodeRowsB
  | 12 => opcodeRowsC
  | 13 => opcodeRowsD
  | 14 => opcodeRowsE
  | _ => opcodeRowsF

/-- The 151 defined rows (R120, R591). -/
def opcodeRows : List OpcodeRow := (List.range 16).flatMap opcodeRowsOf

/-- The table's row for an opcode byte; an undefined byte has none (R120, R125). -/
def rowOf (op : Byte) : Option OpcodeRow :=
  (opcodeRowsOf (op.toNat / 16)).find? fun r => r.opcode == op

/-- The number of operand bytes of an opcode byte, a function of that byte alone (R101, R106); an undefined byte has
none (R125). -/
def operandCount (op : Byte) : Nat :=
  match rowOf op with
  | some r => r.mode.operandBytes
  | none => 0

/-- The base cycle count of an opcode byte (R591); the table's UNDEF rows say 2 (R125). -/
def baseCycles (op : Byte) : Nat :=
  match rowOf op with
  | some r => r.cycles
  | none => 2

/-! ### The decoder -/

/-- Row 0x of the opcode map (R121): the instruction of the column `lo`, with the bytes after the opcode. -/
def decodeRow0 (op b1 b2 : Byte) (lo : Nat) : Instr :=
  match lo with
  | 0x0 => .brk
  | 0x1 => .ora (.izx b1)
  | 0x5 => .ora (.zp b1)
  | 0x6 => .asl (.zp b1)
  | 0x8 => .php
  | 0x9 => .ora (.imm b1)
  | 0xA => .asl .acc
  | 0xD => .ora (.abs (addrOf b1 b2))
  | 0xE => .asl (.abs (addrOf b1 b2))
  | _ => .undef op

/-- Row 1x of the opcode map (R121): the instruction of the column `lo`, with the bytes after the opcode. -/
def decodeRow1 (op b1 b2 : Byte) (lo : Nat) : Instr :=
  match lo with
  | 0x0 => .bpl b1
  | 0x1 => .ora (.izy b1)
  | 0x5 => .ora (.zpx b1)
  | 0x6 => .asl (.zpx b1)
  | 0x8 => .clc
  | 0x9 => .ora (.aby (addrOf b1 b2))
  | 0xD => .ora (.abx (addrOf b1 b2))
  | 0xE => .asl (.abx (addrOf b1 b2))
  | _ => .undef op

/-- Row 2x of the opcode map (R121): the instruction of the column `lo`, with the bytes after the opcode. -/
def decodeRow2 (op b1 b2 : Byte) (lo : Nat) : Instr :=
  match lo with
  | 0x0 => .jsr (addrOf b1 b2)
  | 0x1 => .and (.izx b1)
  | 0x4 => .bit (.zp b1)
  | 0x5 => .and (.zp b1)
  | 0x6 => .rol (.zp b1)
  | 0x8 => .plp
  | 0x9 => .and (.imm b1)
  | 0xA => .rol .acc
  | 0xC => .bit (.abs (addrOf b1 b2))
  | 0xD => .and (.abs (addrOf b1 b2))
  | 0xE => .rol (.abs (addrOf b1 b2))
  | _ => .undef op

/-- Row 3x of the opcode map (R121): the instruction of the column `lo`, with the bytes after the opcode. -/
def decodeRow3 (op b1 b2 : Byte) (lo : Nat) : Instr :=
  match lo with
  | 0x0 => .bmi b1
  | 0x1 => .and (.izy b1)
  | 0x5 => .and (.zpx b1)
  | 0x6 => .rol (.zpx b1)
  | 0x8 => .sec
  | 0x9 => .and (.aby (addrOf b1 b2))
  | 0xD => .and (.abx (addrOf b1 b2))
  | 0xE => .rol (.abx (addrOf b1 b2))
  | _ => .undef op

/-- Row 4x of the opcode map (R121): the instruction of the column `lo`, with the bytes after the opcode. -/
def decodeRow4 (op b1 b2 : Byte) (lo : Nat) : Instr :=
  match lo with
  | 0x0 => .rti
  | 0x1 => .eor (.izx b1)
  | 0x5 => .eor (.zp b1)
  | 0x6 => .lsr (.zp b1)
  | 0x8 => .pha
  | 0x9 => .eor (.imm b1)
  | 0xA => .lsr .acc
  | 0xC => .jmp (.abs (addrOf b1 b2))
  | 0xD => .eor (.abs (addrOf b1 b2))
  | 0xE => .lsr (.abs (addrOf b1 b2))
  | _ => .undef op

/-- Row 5x of the opcode map (R121): the instruction of the column `lo`, with the bytes after the opcode. -/
def decodeRow5 (op b1 b2 : Byte) (lo : Nat) : Instr :=
  match lo with
  | 0x0 => .bvc b1
  | 0x1 => .eor (.izy b1)
  | 0x5 => .eor (.zpx b1)
  | 0x6 => .lsr (.zpx b1)
  | 0x8 => .cli
  | 0x9 => .eor (.aby (addrOf b1 b2))
  | 0xD => .eor (.abx (addrOf b1 b2))
  | 0xE => .lsr (.abx (addrOf b1 b2))
  | _ => .undef op

/-- Row 6x of the opcode map (R121): the instruction of the column `lo`, with the bytes after the opcode. -/
def decodeRow6 (op b1 b2 : Byte) (lo : Nat) : Instr :=
  match lo with
  | 0x0 => .rts
  | 0x1 => .adc (.izx b1)
  | 0x5 => .adc (.zp b1)
  | 0x6 => .ror (.zp b1)
  | 0x8 => .pla
  | 0x9 => .adc (.imm b1)
  | 0xA => .ror .acc
  | 0xC => .jmp (.ind (addrOf b1 b2))
  | 0xD => .adc (.abs (addrOf b1 b2))
  | 0xE => .ror (.abs (addrOf b1 b2))
  | _ => .undef op

/-- Row 7x of the opcode map (R121): the instruction of the column `lo`, with the bytes after the opcode. -/
def decodeRow7 (op b1 b2 : Byte) (lo : Nat) : Instr :=
  match lo with
  | 0x0 => .bvs b1
  | 0x1 => .adc (.izy b1)
  | 0x5 => .adc (.zpx b1)
  | 0x6 => .ror (.zpx b1)
  | 0x8 => .sei
  | 0x9 => .adc (.aby (addrOf b1 b2))
  | 0xD => .adc (.abx (addrOf b1 b2))
  | 0xE => .ror (.abx (addrOf b1 b2))
  | _ => .undef op

/-- Row 8x of the opcode map (R121): the instruction of the column `lo`, with the bytes after the opcode. -/
def decodeRow8 (op b1 b2 : Byte) (lo : Nat) : Instr :=
  match lo with
  | 0x1 => .sta (.izx b1)
  | 0x4 => .sty (.zp b1)
  | 0x5 => .sta (.zp b1)
  | 0x6 => .stx (.zp b1)
  | 0x8 => .dey
  | 0xA => .txa
  | 0xC => .sty (.abs (addrOf b1 b2))
  | 0xD => .sta (.abs (addrOf b1 b2))
  | 0xE => .stx (.abs (addrOf b1 b2))
  | _ => .undef op

/-- Row 9x of the opcode map (R121): the instruction of the column `lo`, with the bytes after the opcode. -/
def decodeRow9 (op b1 b2 : Byte) (lo : Nat) : Instr :=
  match lo with
  | 0x0 => .bcc b1
  | 0x1 => .sta (.izy b1)
  | 0x4 => .sty (.zpx b1)
  | 0x5 => .sta (.zpx b1)
  | 0x6 => .stx (.zpy b1)
  | 0x8 => .tya
  | 0x9 => .sta (.aby (addrOf b1 b2))
  | 0xA => .txs
  | 0xD => .sta (.abx (addrOf b1 b2))
  | _ => .undef op

/-- Row Ax of the opcode map (R121): the instruction of the column `lo`, with the bytes after the opcode. -/
def decodeRowA (op b1 b2 : Byte) (lo : Nat) : Instr :=
  match lo with
  | 0x0 => .ldy (.imm b1)
  | 0x1 => .lda (.izx b1)
  | 0x2 => .ldx (.imm b1)
  | 0x4 => .ldy (.zp b1)
  | 0x5 => .lda (.zp b1)
  | 0x6 => .ldx (.zp b1)
  | 0x8 => .tay
  | 0x9 => .lda (.imm b1)
  | 0xA => .tax
  | 0xC => .ldy (.abs (addrOf b1 b2))
  | 0xD => .lda (.abs (addrOf b1 b2))
  | 0xE => .ldx (.abs (addrOf b1 b2))
  | _ => .undef op

/-- Row Bx of the opcode map (R121): the instruction of the column `lo`, with the bytes after the opcode. -/
def decodeRowB (op b1 b2 : Byte) (lo : Nat) : Instr :=
  match lo with
  | 0x0 => .bcs b1
  | 0x1 => .lda (.izy b1)
  | 0x4 => .ldy (.zpx b1)
  | 0x5 => .lda (.zpx b1)
  | 0x6 => .ldx (.zpy b1)
  | 0x8 => .clv
  | 0x9 => .lda (.aby (addrOf b1 b2))
  | 0xA => .tsx
  | 0xC => .ldy (.abx (addrOf b1 b2))
  | 0xD => .lda (.abx (addrOf b1 b2))
  | 0xE => .ldx (.aby (addrOf b1 b2))
  | _ => .undef op

/-- Row Cx of the opcode map (R121): the instruction of the column `lo`, with the bytes after the opcode. -/
def decodeRowC (op b1 b2 : Byte) (lo : Nat) : Instr :=
  match lo with
  | 0x0 => .cpy (.imm b1)
  | 0x1 => .cmp (.izx b1)
  | 0x4 => .cpy (.zp b1)
  | 0x5 => .cmp (.zp b1)
  | 0x6 => .dec (.zp b1)
  | 0x8 => .iny
  | 0x9 => .cmp (.imm b1)
  | 0xA => .dex
  | 0xC => .cpy (.abs (addrOf b1 b2))
  | 0xD => .cmp (.abs (addrOf b1 b2))
  | 0xE => .dec (.abs (addrOf b1 b2))
  | _ => .undef op

/-- Row Dx of the opcode map (R121): the instruction of the column `lo`, with the bytes after the opcode. -/
def decodeRowD (op b1 b2 : Byte) (lo : Nat) : Instr :=
  match lo with
  | 0x0 => .bne b1
  | 0x1 => .cmp (.izy b1)
  | 0x5 => .cmp (.zpx b1)
  | 0x6 => .dec (.zpx b1)
  | 0x8 => .cld
  | 0x9 => .cmp (.aby (addrOf b1 b2))
  | 0xD => .cmp (.abx (addrOf b1 b2))
  | 0xE => .dec (.abx (addrOf b1 b2))
  | _ => .undef op

/-- Row Ex of the opcode map (R121): the instruction of the column `lo`, with the bytes after the opcode. -/
def decodeRowE (op b1 b2 : Byte) (lo : Nat) : Instr :=
  match lo with
  | 0x0 => .cpx (.imm b1)
  | 0x1 => .sbc (.izx b1)
  | 0x4 => .cpx (.zp b1)
  | 0x5 => .sbc (.zp b1)
  | 0x6 => .inc (.zp b1)
  | 0x8 => .inx
  | 0x9 => .sbc (.imm b1)
  | 0xA => .nop
  | 0xC => .cpx (.abs (addrOf b1 b2))
  | 0xD => .sbc (.abs (addrOf b1 b2))
  | 0xE => .inc (.abs (addrOf b1 b2))
  | _ => .undef op

/-- Row Fx of the opcode map (R121): the instruction of the column `lo`, with the bytes after the opcode. -/
def decodeRowF (op b1 b2 : Byte) (lo : Nat) : Instr :=
  match lo with
  | 0x0 => .beq b1
  | 0x1 => .sbc (.izy b1)
  | 0x5 => .sbc (.zpx b1)
  | 0x6 => .inc (.zpx b1)
  | 0x8 => .sed
  | 0x9 => .sbc (.aby (addrOf b1 b2))
  | 0xD => .sbc (.abx (addrOf b1 b2))
  | 0xE => .inc (.abx (addrOf b1 b2))
  | _ => .undef op

/-- The instruction an opcode byte stands for, with the two bytes that follow it (R120, R121): the high digit chooses the
row of the opcode map and the low digit the column. A following byte that the mode does not use is ignored. -/
def decodeOp (op b1 b2 : Byte) : Instr :=
  match op.toNat / 16 with
  | 0 => decodeRow0 op b1 b2 (op.toNat % 16)
  | 1 => decodeRow1 op b1 b2 (op.toNat % 16)
  | 2 => decodeRow2 op b1 b2 (op.toNat % 16)
  | 3 => decodeRow3 op b1 b2 (op.toNat % 16)
  | 4 => decodeRow4 op b1 b2 (op.toNat % 16)
  | 5 => decodeRow5 op b1 b2 (op.toNat % 16)
  | 6 => decodeRow6 op b1 b2 (op.toNat % 16)
  | 7 => decodeRow7 op b1 b2 (op.toNat % 16)
  | 8 => decodeRow8 op b1 b2 (op.toNat % 16)
  | 9 => decodeRow9 op b1 b2 (op.toNat % 16)
  | 10 => decodeRowA op b1 b2 (op.toNat % 16)
  | 11 => decodeRowB op b1 b2 (op.toNat % 16)
  | 12 => decodeRowC op b1 b2 (op.toNat % 16)
  | 13 => decodeRowD op b1 b2 (op.toNat % 16)
  | 14 => decodeRowE op b1 b2 (op.toNat % 16)
  | _ => decodeRowF op b1 b2 (op.toNat % 16)

/-- Why a byte string holds no whole instruction. -/
inductive DecodeError where
  /-- There is no byte at all. -/
  | noOpcode
  /-- The operand bytes that `op` needs are not all there. -/
  | missingOperand (op : Byte)
  deriving DecidableEq, Repr

/-- Reads one instruction from the front of a byte string and gives it with the bytes after it (R100, R101). Every
opcode byte has a meaning; only a string that ends too early is rejected. -/
def decode : List Byte → Except DecodeError (Instr × List Byte)
  | [] => .error .noOpcode
  | op :: rest =>
    match operandCount op with
    | 0 => .ok (decodeOp op 0 0, rest)
    | 1 =>
      match rest with
      | b1 :: rest => .ok (decodeOp op b1 0, rest)
      | [] => .error (.missingOperand op)
    | _ =>
      match rest with
      | b1 :: b2 :: rest => .ok (decodeOp op b1 b2, rest)
      | _ => .error (.missingOperand op)

/-- The three bytes of a table word: bit 0 is the least significant bit of the first byte, and the bits above `nbits` are
0 (an instruction is at most three bytes long, R100). -/
def tableWordBytes (nbits w : Nat) : List Byte :=
  let v := w % 2 ^ nbits
  [BitVec.ofNat 8 v, BitVec.ofNat 8 (v / 256), BitVec.ofNat 8 (v / 65536)]

/-- The instruction the decoder reads from a word numbered as spec/opcode_table.json numbers it; none for a word of
fewer than eight bits, which holds no opcode byte. -/
def decodeTableWord (nbits w : Nat) : Option Instr :=
  if nbits < 8 then none
  else
    match decode (tableWordBytes nbits w) with
    | .ok (i, _) => some i
    | .error _ => none

/-! ### The encoder -/

/-- The opcode byte of an instruction (R122). -/
def opcodeOf : Instr → Byte
  | .lda (.imm _) => 0xA9
  | .lda (.zp _) => 0xA5
  | .lda (.zpx _) => 0xB5
  | .lda (.abs _) => 0xAD
  | .lda (.abx _) => 0xBD
  | .lda (.aby _) => 0xB9
  | .lda (.izx _) => 0xA1
  | .lda (.izy _) => 0xB1
  | .ldx (.imm _) => 0xA2
  | .ldx (.zp _) => 0xA6
  | .ldx (.zpy _) => 0xB6
  | .ldx (.abs _) => 0xAE
  | .ldx (.aby _) => 0xBE
  | .ldy (.imm _) => 0xA0
  | .ldy (.zp _) => 0xA4
  | .ldy (.zpx _) => 0xB4
  | .ldy (.abs _) => 0xAC
  | .ldy (.abx _) => 0xBC
  | .sta (.zp _) => 0x85
  | .sta (.zpx _) => 0x95
  | .sta (.abs _) => 0x8D
  | .sta (.abx _) => 0x9D
  | .sta (.aby _) => 0x99
  | .sta (.izx _) => 0x81
  | .sta (.izy _) => 0x91
  | .stx (.zp _) => 0x86
  | .stx (.zpy _) => 0x96
  | .stx (.abs _) => 0x8E
  | .sty (.zp _) => 0x84
  | .sty (.zpx _) => 0x94
  | .sty (.abs _) => 0x8C
  | .tax => 0xAA
  | .tay => 0xA8
  | .txa => 0x8A
  | .tya => 0x98
  | .tsx => 0xBA
  | .txs => 0x9A
  | .adc (.imm _) => 0x69
  | .adc (.zp _) => 0x65
  | .adc (.zpx _) => 0x75
  | .adc (.abs _) => 0x6D
  | .adc (.abx _) => 0x7D
  | .adc (.aby _) => 0x79
  | .adc (.izx _) => 0x61
  | .adc (.izy _) => 0x71
  | .sbc (.imm _) => 0xE9
  | .sbc (.zp _) => 0xE5
  | .sbc (.zpx _) => 0xF5
  | .sbc (.abs _) => 0xED
  | .sbc (.abx _) => 0xFD
  | .sbc (.aby _) => 0xF9
  | .sbc (.izx _) => 0xE1
  | .sbc (.izy _) => 0xF1
  | .cmp (.imm _) => 0xC9
  | .cmp (.zp _) => 0xC5
  | .cmp (.zpx _) => 0xD5
  | .cmp (.abs _) => 0xCD
  | .cmp (.abx _) => 0xDD
  | .cmp (.aby _) => 0xD9
  | .cmp (.izx _) => 0xC1
  | .cmp (.izy _) => 0xD1
  | .cpx (.imm _) => 0xE0
  | .cpx (.zp _) => 0xE4
  | .cpx (.abs _) => 0xEC
  | .cpy (.imm _) => 0xC0
  | .cpy (.zp _) => 0xC4
  | .cpy (.abs _) => 0xCC
  | .and (.imm _) => 0x29
  | .and (.zp _) => 0x25
  | .and (.zpx _) => 0x35
  | .and (.abs _) => 0x2D
  | .and (.abx _) => 0x3D
  | .and (.aby _) => 0x39
  | .and (.izx _) => 0x21
  | .and (.izy _) => 0x31
  | .ora (.imm _) => 0x09
  | .ora (.zp _) => 0x05
  | .ora (.zpx _) => 0x15
  | .ora (.abs _) => 0x0D
  | .ora (.abx _) => 0x1D
  | .ora (.aby _) => 0x19
  | .ora (.izx _) => 0x01
  | .ora (.izy _) => 0x11
  | .eor (.imm _) => 0x49
  | .eor (.zp _) => 0x45
  | .eor (.zpx _) => 0x55
  | .eor (.abs _) => 0x4D
  | .eor (.abx _) => 0x5D
  | .eor (.aby _) => 0x59
  | .eor (.izx _) => 0x41
  | .eor (.izy _) => 0x51
  | .bit (.zp _) => 0x24
  | .bit (.abs _) => 0x2C
  | .asl (.zp _) => 0x06
  | .asl (.zpx _) => 0x16
  | .asl (.abs _) => 0x0E
  | .asl (.abx _) => 0x1E
  | .asl .acc => 0x0A
  | .lsr (.zp _) => 0x46
  | .lsr (.zpx _) => 0x56
  | .lsr (.abs _) => 0x4E
  | .lsr (.abx _) => 0x5E
  | .lsr .acc => 0x4A
  | .rol (.zp _) => 0x26
  | .rol (.zpx _) => 0x36
  | .rol (.abs _) => 0x2E
  | .rol (.abx _) => 0x3E
  | .rol .acc => 0x2A
  | .ror (.zp _) => 0x66
  | .ror (.zpx _) => 0x76
  | .ror (.abs _) => 0x6E
  | .ror (.abx _) => 0x7E
  | .ror .acc => 0x6A
  | .inc (.zp _) => 0xE6
  | .inc (.zpx _) => 0xF6
  | .inc (.abs _) => 0xEE
  | .inc (.abx _) => 0xFE
  | .dec (.zp _) => 0xC6
  | .dec (.zpx _) => 0xD6
  | .dec (.abs _) => 0xCE
  | .dec (.abx _) => 0xDE
  | .inx => 0xE8
  | .iny => 0xC8
  | .dex => 0xCA
  | .dey => 0x88
  | .pha => 0x48
  | .php => 0x08
  | .pla => 0x68
  | .plp => 0x28
  | .jmp (.abs _) => 0x4C
  | .jmp (.ind _) => 0x6C
  | .jsr _ => 0x20
  | .rts => 0x60
  | .rti => 0x40
  | .brk => 0x00
  | .bpl _ => 0x10
  | .bmi _ => 0x30
  | .bvc _ => 0x50
  | .bvs _ => 0x70
  | .bcc _ => 0x90
  | .bcs _ => 0xB0
  | .bne _ => 0xD0
  | .beq _ => 0xF0
  | .clc => 0x18
  | .sec => 0x38
  | .cli => 0x58
  | .sei => 0x78
  | .cld => 0xD8
  | .sed => 0xF8
  | .clv => 0xB8
  | .nop => 0xEA
  | .undef op => op

/-- The bytes of an instruction: the opcode, then the operand bytes in ascending order (R100, R103, R104). -/
def encode (i : Instr) : List Byte :=
  opcodeOf i ::
    match i.operand with
    | some o => o.bytes
    | none => []

/-- The length of an instruction in bytes (R101). -/
def Instr.length (i : Instr) : Nat := 1 + i.mode.operandBytes

/-- `base`: the base cycle count of an instruction's opcode row (R200). -/
def Instr.base (i : Instr) : Nat := baseCycles (opcodeOf i)

end Sys2Proof
end

