-- ==== Sys2Proof/Machine/Defaults.lean ====
section
/-! DEFINITION. The values the spec takes for the parameters of R8. -/

namespace Sys2Proof

/-- The parameter values of R8. IO_ADDRS is open there (D27); the empty set is the model's choice (log 1). The others are
the spec's own decisions D3 to D7 (log 3), and UNDEF_CYCLES is the source's. -/
def Config.spec : Config where
  resetSp := 0xFD
  resetP := 0x24
  resetVector := 0xFFFC
  irqVector := 0xFFFE
  stackPage := 0x01
  undefCycles := 2
  ioAddrs := []

end Sys2Proof
end

