-- ==== Sys2Proof/Machine/Memory.lean ====
section
/-! DEFINITION. The 65536-byte array M of R63, as the list of the bytes that differ from what an unlisted byte reads as. -/

namespace Sys2Proof.Machine

/-- M, the memory the host owns (R63): (address, byte) pairs. -/
abbrev Memory := List Host.Cell

/-- What an unlisted address reads as. INIT_MEM is open (R82, D38); every content of M has its list, and 0x00 is what the
reset state's empty list stands for (log 4). -/
def Memory.unlisted : Byte := 0x00

/-- `M[k]`. -/
def Memory.read : Memory → Nat → Byte
  | [], _ => Memory.unlisted
  | (key, v) :: rest, k => if key = k then v else Memory.read rest k

/-- M without an entry for `k`. -/
def Memory.erase (m : Memory) (k : Nat) : Memory := m.filter fun c => c.1 != k

/-- M with the entry `(k, v)` put before the first larger key, in place of an entry for `k`. -/
def Memory.insert : Memory → Nat → Byte → Memory
  | [], k, v => [(k, v)]
  | (key, w) :: rest, k, v =>
    if k < key then (k, v) :: (key, w) :: rest
    else if key = k then (k, v) :: rest
    else (key, w) :: Memory.insert rest k v

/-- `M[k] <- v`. -/
def Memory.write (m : Memory) (k : Nat) (v : Byte) : Memory :=
  if v = Memory.unlisted then m.erase k else m.insert k v

/-- The canonical form: addresses strictly rising and inside the address space (R60), and no entry that says what an
unlisted address reads as. -/
abbrev Memory.wf (m : Memory) : Prop :=
  m.Pairwise (fun c d => c.1 < d.1) ∧ ∀ c ∈ m, c.1 < 65536 ∧ c.2 ≠ Memory.unlisted

end Sys2Proof.Machine
end

