-- ==== Sys2Proof/Machine/State.lean ====
section
/-! DEFINITION. The state of the machine: the register file (R20), memory (R63), the parameters (R8), what the ports of
the block have put out (R45, R47, R48), and the model's counter of host answers. -/

namespace Sys2Proof.Machine

/-- One transaction on the bus (R61, R62), with the byte it moved. -/
inductive BusEvent where
  /-- `read(addr)` answered `v`. -/
  | read (addr : Addr) (v : Byte)
  /-- `write(addr, v)`. -/
  | write (addr : Addr) (v : Byte)
  deriving DecidableEq, Repr

/-- An event on the DIAG output (R47). -/
inductive DiagEvent where
  /-- `UndefinedOpcode(opaddr, op)`. -/
  | undefinedOpcode (opaddr : Addr) (op : Byte)
  deriving DecidableEq, Repr

/-- Everything the spec gives the machine, and the counter `draws` of the model's own. -/
structure State where
  /-- Accumulator (R20). -/
  a : Byte
  /-- Index register X (R20). -/
  x : Byte
  /-- Index register Y (R20). -/
  y : Byte
  /-- Stack pointer, an offset in the stack page (R24). -/
  sp : Byte
  /-- Program counter (R23). -/
  pc : Addr
  /-- Status register as stored, N V 1 B D I Z C from bit 7 down (R25); it is read through `readP` (R26). -/
  p : Byte
  /-- Memory M (R63). -/
  mem : Memory
  /-- The parameters of R8; no step changes them. -/
  cfg : Config
  /-- How many host answers have been drawn: the model's own field, which makes each one a fresh free value (log 2). -/
  draws : Nat
  /-- The BUS port: the transactions of the latest STEP or RESET, in order (R48, R72; log 9). -/
  bus : List BusEvent
  /-- The DIAG port: the events emitted so far, oldest first (R47; log 10). -/
  diag : List DiagEvent
  /-- The result of the latest STEP (R45); none after a RESET, which reports no count (R564; log 8). -/
  cycles : Option Nat
  /-- A first RESET has happened (R565). -/
  resetDone : Bool
  deriving DecidableEq, Repr

/-- The machine stops with a fault: never. No rule gives the engine a failing step (R500, 93 part 1). -/
inductive Fault where
  deriving DecidableEq, Repr

/-- A step that is turned away. -/
inductive Refusal where
  /-- Raised by `exec` for an instruction that has no meaning yet; no arm of this model raises it. Safe. -/
  | notModelled (mnemonic : String)
  /-- Raised by `step` and `observe` before the first RESET, where registers hold no value (R565, U4). Safe. -/
  | beforeReset
  deriving DecidableEq, Repr

/-! ### Updates of one field -/

def State.setA (s : State) (v : Byte) : State := { s with a := v }
def State.setX (s : State) (v : Byte) : State := { s with x := v }
def State.setY (s : State) (v : Byte) : State := { s with y := v }
def State.setSp (s : State) (v : Byte) : State := { s with sp := v }
def State.setPc (s : State) (v : Addr) : State := { s with pc := v }
def State.setP (s : State) (v : Byte) : State := { s with p := v }
def State.setMem (s : State) (v : Memory) : State := { s with mem := v }
def State.setDraws (s : State) (v : Nat) : State := { s with draws := v }
def State.setBus (s : State) (v : List BusEvent) : State := { s with bus := v }
def State.setDiag (s : State) (v : List DiagEvent) : State := { s with diag := v }
def State.setCycles (s : State) (v : Option Nat) : State := { s with cycles := v }

/-- The machine right after RESET (R561) with the parameters of R8 and a memory that lists nothing: PC holds the vector
read from that memory, BUS shows the two vector reads (R562), DIAG nothing, and no cycle count is reported (R564). -/
def State.reset : State :=
  let vector := Config.spec.resetVector
  let lo := Memory.read [] vector.toNat
  let hi := Memory.read [] (vector + 1).toNat
  { a := 0, x := 0, y := 0
    sp := Config.spec.resetSp
    pc := word hi lo
    p := Config.spec.resetP ||| 0x20
    mem := []
    cfg := Config.spec
    draws := 0
    bus := [.read vector lo, .read (vector + 1) hi]
    diag := []
    cycles := none
    resetDone := true }

end Sys2Proof.Machine
end

