-- ==== Sys2Proof/Machine/Flags.lean ====
section
/-! DEFINITION. The status register and its fields, the flag decoder, and the ALU: adder, compare, shift unit. -/

namespace Sys2Proof.Machine

/-! ### P as a whole (R26) -/

/-- A read of P: bit 5 reads as 1 at all times (R26). -/
def State.readP (s : State) : Byte := s.p ||| 0x20

/-- A write of P: bit 5 is ORed in (R26). -/
def State.writeP (s : State) (v : Byte) : State := s.setP (v ||| 0x20)

/-! ### The fields of P (R25) -/

/-- P.C (R27). -/
def State.flagC (s : State) : Bool := s.p.getLsbD 0
/-- P.Z (R28). -/
def State.flagZ (s : State) : Bool := s.p.getLsbD 1
/-- P.I (R31). -/
def State.flagI (s : State) : Bool := s.p.getLsbD 2
/-- P.D (R32). -/
def State.flagD (s : State) : Bool := s.p.getLsbD 3
/-- P.B, the stored bit (R33). -/
def State.flagB (s : State) : Bool := s.p.getLsbD 4
/-- P.V (R30). -/
def State.flagV (s : State) : Bool := s.p.getLsbD 6
/-- P.N (R29). -/
def State.flagN (s : State) : Bool := s.p.getLsbD 7

def State.setC (s : State) (b : Bool) : State := s.setP (setBit s.p 0 b)
def State.setZ (s : State) (b : Bool) : State := s.setP (setBit s.p 1 b)
def State.setI (s : State) (b : Bool) : State := s.setP (setBit s.p 2 b)
def State.setD (s : State) (b : Bool) : State := s.setP (setBit s.p 3 b)
def State.setV (s : State) (b : Bool) : State := s.setP (setBit s.p 6 b)
def State.setN (s : State) (b : Bool) : State := s.setP (setBit s.p 7 b)

/-- `SetNZ(v)`: Z is set for 0x00, N is bit 7 (R260). -/
def State.setNZ (s : State) (v : Byte) : State := (s.setZ (v == 0)).setN (v.getLsbD 7)

/-! ### The adder (R263) -/

/-- What the adder gives: result, carry out, overflow (R263). -/
structure Sum where
  r : Byte
  c : Bool
  v : Bool
  deriving DecidableEq, Repr

/-- `AddC(a, b, cin)`: the 9-bit sum, its low 8 bits, its carry, and the sign-mismatch test (R262-R264). -/
def addC (a b : Byte) (cin : Bool) : Sum :=
  let s := a.toNat + b.toNat + bitNat cin
  let r := BitVec.ofNat 8 s
  { r := r, c := decide (s > 0xFF), v := ((a ^^^ r) &&& (b ^^^ r)).getLsbD 7 }

/-- `Sub(a, m, cin)`: addition of the one's complement (R265). -/
def subC (a m : Byte) (cin : Bool) : Sum := addC a (~~~m) cin

/-- A sum's effect on C, V, N and Z (R270, R271). -/
def State.setSumFlags (s : State) (sum : Sum) : State := ((s.setC sum.c).setV sum.v).setNZ sum.r

/-- `Compare(reg, m)`: a subtraction with no borrow that writes C, Z and N only (R267). -/
def State.compare (s : State) (reg m : Byte) : State :=
  let d := subC reg m true
  (s.setC d.c).setNZ d.r

/-! ### The shift unit (R321) -/

/-- What the shift unit gives: result and the bit moved out (R321). -/
structure Shifted where
  r : Byte
  cout : Bool
  deriving DecidableEq, Repr

/-- `ShiftL(v, cin)` (R321). -/
def shiftL (v : Byte) (cin : Bool) : Shifted where
  r := (v <<< 1) ||| BitVec.ofNat 8 (bitNat cin)
  cout := v.getLsbD 7

/-- `ShiftR(v, cin)` (R321). -/
def shiftR (v : Byte) (cin : Bool) : Shifted where
  r := (v >>> 1) ||| (BitVec.ofNat 8 (bitNat cin) <<< 7)
  cout := v.getLsbD 0

/-- A shift's effect on C, N and Z (R321). -/
def State.setShiftFlags (s : State) (sh : Shifted) : State := (s.setC sh.cout).setNZ sh.r

end Sys2Proof.Machine
end

