-- ==== Sys2Proof/Machine/Ops.lean ====
section
/-! DEFINITION. The bus, operand fetch, the stack, trap entry and return, and RESET: the operations the meanings share. -/

namespace Sys2Proof.Machine

/-- A byte and the state after it was read. -/
structure Got where
  value : Byte
  st : State
  deriving DecidableEq, Repr

/-- A 16-bit value and the state after its two bytes were read. -/
structure Got16 where
  value : Addr
  st : State
  deriving DecidableEq, Repr

/-! ### The bus (R61-R64) -/

/-- The host intercepts `a`: it is in IO_ADDRS (R64). -/
def State.intercepted (s : State) (a : Addr) : Bool := s.cfg.ioAddrs.contains a

/-- What a bus read of `a` answers: `M[a]` on the default path (R63), any byte at an intercepted address (R64, U5). -/
def State.answer (s : State) (a : Addr) : Byte :=
  if s.intercepted a then Config.hostByte s.draws else s.mem.read a.toNat

/-- The number of host answers drawn after one more transaction at `a`. -/
def State.drawsAfter (s : State) (a : Addr) : Nat := if s.intercepted a then s.draws + 1 else s.draws

/-- A transaction appears on the BUS port (R48). -/
def State.logBus (s : State) (e : BusEvent) : State := s.setBus (s.bus ++ [e])

/-- `MemRead(a, 1)` (R61): one transaction, which changes nothing in the machine but the port and the count of draws. -/
def busRead (s : State) (a : Addr) : Got where
  value := s.answer a
  st := (s.logBus (.read a (s.answer a))).setDraws (s.drawsAfter a)

/-- `MemWrite(a, 1, v)` (R62): `M[a] <- v` on the default path (R63). At an intercepted address the transaction is issued
and what `M[a]` holds afterwards is the host's business: a free value (R64, U6; log 2). -/
def busWrite (s : State) (a : Addr) (v : Byte) : State :=
  let kept := if s.intercepted a then Config.hostByte s.draws else v
  ((s.logBus (.write a v)).setMem (s.mem.write a.toNat kept)).setDraws (s.drawsAfter a)

/-- `Read16(a)`: the low byte, then the high byte at `a + 1` modulo 65536 (R12). -/
def read16 (s : State) (a : Addr) : Got16 :=
  let lo := busRead s a
  let hi := busRead lo.st (a + 1)
  { value := word hi.value lo.value, st := hi.st }

/-- `fetch8()` (R141): the byte at PC, and PC moves on by one modulo 65536. -/
def fetch8 (s : State) : Got :=
  let b := busRead s s.pc
  { value := b.value, st := b.st.setPc (s.pc + 1) }

/-! ### The stack (R380-R382) -/

/-- `STACK_PAGE ++ SP` (R24). -/
def State.stackAddr (s : State) : Addr := word s.cfg.stackPage s.sp

/-- `Push(v)`: store, then decrement SP modulo 256 (R380). -/
def push (s : State) (v : Byte) : State := (busWrite s s.stackAddr v).setSp (s.sp - 1)

/-- `Pop()`: increment SP modulo 256, then load (R381). -/
def pop (s : State) : Got :=
  let s1 := s.setSp (s.sp + 1)
  busRead s1 s1.stackAddr

/-- `Push16(w)`: the high byte first (R382). -/
def push16 (s : State) (w : Addr) : State := push (push s (hiByte w)) (loByte w)

/-- `Pop16()`: the low byte, then the high byte (R382). -/
def pop16 (s : State) : Got16 :=
  let lo := pop s
  let hi := pop lo.st
  { value := word hi.value lo.value, st := hi.st }

/-! ### Trap entry and return -/

/-- The byte that PHP and BRK push: P with bits 5 and 4 set (R384, R391). -/
def State.pushedP (s : State) : Byte := s.readP ||| 0x30

/-- TAKING THE TRAP (R391, R520): push `ret`, push P with B and bit 5 set, set I, load PC from the vector. -/
def enterTrap (s : State) (ret vector : Addr) : State :=
  let s1 := push16 s ret
  let s2 := push s1 s1.pushedP
  let target := read16 (s2.setI true) vector
  target.st.setPc target.value

/-- RETURNING FROM THE TRAP (R390, R530): pop P, bit 5 forced to 1, then pop PC with no adjustment. -/
def returnFromTrap (s : State) : State :=
  let flags := pop s
  let target := pop16 (flags.st.writeP flags.value)
  target.st.setPc target.value

/-! ### RESET -/

/-- The RESET sequence (R560): registers, then the two vector reads, low byte first. Memory is unchanged (R562); no cycle
count is reported (R564); nothing goes to DIAG (R561). -/
def performReset (s : State) : State :=
  let s1 := { s with a := 0, x := 0, y := 0, sp := s.cfg.resetSp, bus := [], cycles := none, resetDone := true }
  let target := read16 (s1.writeP s.cfg.resetP) s.cfg.resetVector
  target.st.setPc target.value

end Sys2Proof.Machine
end

