-- ==== Sys2Proof/Machine/Operands.lean ====
section
/-! DEFINITION. The addressing-mode resolver (R140-R160). A step has fetched the operand bytes already, in the order of
R158, so PC is the next instruction's address here and an `Operand` carries the bytes (log 11). -/

namespace Sys2Proof.Machine

/-- What the resolver gives (R140): the effective address, the extra cycle (0 or 1), and the state after its reads. -/
structure Resolved where
  ea : Addr
  extra : Nat
  st : State
  deriving DecidableEq, Repr

/-- A pointer both of whose bytes lie in zero page (R152, R153). -/
def readZpPointer (s : State) (p : Byte) : Got16 :=
  let lo := busRead s (word 0x00 p)
  let hi := busRead lo.st (word 0x00 (p + 1))
  { value := word hi.value lo.value, st := hi.st }

/-- The pointer of JMP (IND): the high byte comes from the pointer's own page (R151). -/
def readPagePointer (s : State) (ptr : Addr) : Got16 :=
  let lo := busRead s ptr
  let hi := busRead lo.st (word (hiByte ptr) (loByte ptr + 1))
  { value := word hi.value lo.value, st := hi.st }

/-- The extra cycle of an indexed mode: 1 when the penalty applies and the page is crossed (R156). -/
def pageExtra (penalty : Bool) (base ea : Addr) : Nat := if penalty && cross base ea then 1 else 0

/-- An indexed 16-bit address (R149, R150, R153). -/
def indexed (penalty : Bool) (base : Addr) (index : Byte) (s : State) : Resolved :=
  let ea := base + zext16 index
  { ea := ea, extra := pageExtra penalty base ea, st := s }

/-- `Resolve(mode, penalty)` for the eleven modes with an effective address (R144-R154). -/
def resolve (o : Operand) (penalty : Bool) (s : State) : Resolved :=
  match o with
  | .imm _ => { ea := s.pc - 1, extra := 0, st := s }
  | .zp z => { ea := word 0x00 z, extra := 0, st := s }
  | .zpx z => { ea := word 0x00 (z + s.x), extra := 0, st := s }
  | .zpy z => { ea := word 0x00 (z + s.y), extra := 0, st := s }
  | .abs a => { ea := a, extra := 0, st := s }
  | .abx a => indexed penalty a s.x s
  | .aby a => indexed penalty a s.y s
  | .ind a =>
    let p := readPagePointer s a
    { ea := p.value, extra := 0, st := p.st }
  | .izx z =>
    let p := readZpPointer s (z + s.x)
    { ea := p.value, extra := 0, st := p.st }
  | .izy z =>
    let p := readZpPointer s z
    indexed penalty p.value p.st.y p.st
  | .rel d => { ea := s.pc + sext16 d, extra := 0, st := s }

/-- A data byte, the extra cycle, and the state after the reads. -/
structure Fetched where
  value : Byte
  extra : Nat
  st : State
  deriving DecidableEq, Repr

/-- The data operand of a reading instruction: resolve with the penalty (R157), then `MemRead(EA, 1)`. In IMM the operand
byte is the data, and its one read is the step's operand fetch (R144, R158). -/
def readOperand (o : Operand) (s : State) : Fetched :=
  let r := resolve o true s
  match o with
  | .imm v => { value := v, extra := r.extra, st := r.st }
  | _ =>
    let m := busRead r.st r.ea
    { value := m.value, extra := r.extra, st := m.st }

/-- A store: resolve without the penalty, then `MemWrite(EA, 1, v)` (R204-R206). -/
def storeOperand (o : Operand) (v : Byte) (s : State) : State :=
  let r := resolve o false s
  busWrite r.st r.ea v

/-- A read-modify-write (R320): resolve without the penalty, one read, one write of `f M` at the same address. The byte
read is given with the state. -/
def modifyOperand (o : Operand) (f : Byte → Byte) (s : State) : Got :=
  let r := resolve o false s
  let m := busRead r.st r.ea
  { value := m.value, st := busWrite m.st r.ea (f m.value) }

end Sys2Proof.Machine
end

