-- ==== Sys2Proof/Machine/Alu.lean ====
section
/-! DEFINITION. Arithmetic, compares and logic (R270-R278). -/

namespace Sys2Proof.Machine

/-- ADC (R270): binary whatever D holds (R266). -/
def execAdc (o : ReadOp) (s : State) : Host.Outcome State Fault Refusal :=
  let m := readOperand o.operand s
  let sum := addC m.st.a m.value m.st.flagC
  .next (((m.st.setA sum.r).setSumFlags sum).setCycles (some ((Instr.adc o).base + m.extra)))

/-- SBC (R271): binary whatever D holds (R266). -/
def execSbc (o : ReadOp) (s : State) : Host.Outcome State Fault Refusal :=
  let m := readOperand o.operand s
  let sum := subC m.st.a m.value m.st.flagC
  .next (((m.st.setA sum.r).setSumFlags sum).setCycles (some ((Instr.sbc o).base + m.extra)))

/-- CMP (R272): compare A with the operand byte; no register is written. -/
def execCmp (o : ReadOp) (s : State) : Host.Outcome State Fault Refusal :=
  let m := readOperand o.operand s
  .next ((m.st.compare m.st.a m.value).setCycles (some ((Instr.cmp o).base + m.extra)))

/-- CPX (R273): compare X with the operand byte; no register is written. -/
def execCpx (o : CpxOp) (s : State) : Host.Outcome State Fault Refusal :=
  let m := readOperand o.operand s
  .next ((m.st.compare m.st.x m.value).setCycles (some ((Instr.cpx o).base + m.extra)))

/-- CPY (R274): compare Y with the operand byte; no register is written. -/
def execCpy (o : CpxOp) (s : State) : Host.Outcome State Fault Refusal :=
  let m := readOperand o.operand s
  .next ((m.st.compare m.st.y m.value).setCycles (some ((Instr.cpy o).base + m.extra)))

/-- AND (R275). -/
def execAnd (o : ReadOp) (s : State) : Host.Outcome State Fault Refusal :=
  let m := readOperand o.operand s
  let r := m.st.a &&& m.value
  .next (((m.st.setA r).setNZ r).setCycles (some ((Instr.and o).base + m.extra)))

/-- ORA (R276). -/
def execOra (o : ReadOp) (s : State) : Host.Outcome State Fault Refusal :=
  let m := readOperand o.operand s
  let r := m.st.a ||| m.value
  .next (((m.st.setA r).setNZ r).setCycles (some ((Instr.ora o).base + m.extra)))

/-- EOR (R277). -/
def execEor (o : ReadOp) (s : State) : Host.Outcome State Fault Refusal :=
  let m := readOperand o.operand s
  let r := m.st.a ^^^ m.value
  .next (((m.st.setA r).setNZ r).setCycles (some ((Instr.eor o).base + m.extra)))

/-- BIT (R278): Z from A and M, N and V from M alone. -/
def execBit (o : BitOp) (s : State) : Host.Outcome State Fault Refusal :=
  let m := readOperand o.operand s
  let s1 := ((m.st.setZ (m.st.a &&& m.value == 0)).setN (m.value.getLsbD 7)).setV (m.value.getLsbD 6)
  .next (s1.setCycles (some ((Instr.bit o).base + m.extra)))

end Sys2Proof.Machine
end

