-- ==== Sys2Proof/Machine/FlagMisc.lean ====
section
/-! DEFINITION. Flag instructions, NOP and the undefined opcodes (R460-R471). -/

namespace Sys2Proof.Machine

/-- CLC (R460). -/
def execClc (s : State) : Host.Outcome State Fault Refusal := .next ((s.setC false).setCycles (some 2))

/-- SEC (R461). -/
def execSec (s : State) : Host.Outcome State Fault Refusal := .next ((s.setC true).setCycles (some 2))

/-- CLI (R462). -/
def execCli (s : State) : Host.Outcome State Fault Refusal := .next ((s.setI false).setCycles (some 2))

/-- SEI (R463). -/
def execSei (s : State) : Host.Outcome State Fault Refusal := .next ((s.setI true).setCycles (some 2))

/-- CLD (R464). -/
def execCld (s : State) : Host.Outcome State Fault Refusal := .next ((s.setD false).setCycles (some 2))

/-- SED (R465). -/
def execSed (s : State) : Host.Outcome State Fault Refusal := .next ((s.setD true).setCycles (some 2))

/-- CLV (R466). -/
def execClv (s : State) : Host.Outcome State Fault Refusal := .next ((s.setV false).setCycles (some 2))

/-- NOP (R467): PC is past the one byte already. -/
def execNop (s : State) : Host.Outcome State Fault Refusal := .next (s.setCycles (some 2))

/-- An undefined opcode (R470): one event on DIAG with the opcode's address, PC - 1, and UNDEF_CYCLES cycles; nothing else
changes. -/
def execUndef (op : Byte) (s : State) : Host.Outcome State Fault Refusal :=
  .next ((s.setDiag (s.diag ++ [.undefinedOpcode (s.pc - 1) op])).setCycles (some s.cfg.undefCycles))

end Sys2Proof.Machine
end

