-- ==== Sys2Proof/Machine/LoadStore.lean ====
section
/-! DEFINITION. Loads, stores and register transfers (R200-R212). -/

namespace Sys2Proof.Machine

/-- LDA (R201): A takes the operand byte and sets N and Z. -/
def execLda (o : ReadOp) (s : State) : Host.Outcome State Fault Refusal :=
  let m := readOperand o.operand s
  .next (((m.st.setA m.value).setNZ m.value).setCycles (some ((Instr.lda o).base + m.extra)))

/-- LDX (R202): X takes the operand byte and sets N and Z. -/
def execLdx (o : LdxOp) (s : State) : Host.Outcome State Fault Refusal :=
  let m := readOperand o.operand s
  .next (((m.st.setX m.value).setNZ m.value).setCycles (some ((Instr.ldx o).base + m.extra)))

/-- LDY (R203): Y takes the operand byte and sets N and Z. -/
def execLdy (o : LdyOp) (s : State) : Host.Outcome State Fault Refusal :=
  let m := readOperand o.operand s
  .next (((m.st.setY m.value).setNZ m.value).setCycles (some ((Instr.ldy o).base + m.extra)))

/-- STA (R204): A goes to the effective address; no flag changes and no penalty is paid. -/
def execSta (o : StaOp) (s : State) : Host.Outcome State Fault Refusal :=
  .next ((storeOperand o.operand s.a s).setCycles (some (Instr.sta o).base))

/-- STX (R205): X goes to the effective address; no flag changes and no penalty is paid. -/
def execStx (o : StxOp) (s : State) : Host.Outcome State Fault Refusal :=
  .next ((storeOperand o.operand s.x s).setCycles (some (Instr.stx o).base))

/-- STY (R206): Y goes to the effective address; no flag changes and no penalty is paid. -/
def execSty (o : StyOp) (s : State) : Host.Outcome State Fault Refusal :=
  .next ((storeOperand o.operand s.y s).setCycles (some (Instr.sty o).base))

/-- TAX (R207). -/
def execTax (s : State) : Host.Outcome State Fault Refusal :=
  .next (((s.setX s.a).setNZ s.a).setCycles (some 2))

/-- TAY (R208). -/
def execTay (s : State) : Host.Outcome State Fault Refusal :=
  .next (((s.setY s.a).setNZ s.a).setCycles (some 2))

/-- TXA (R209). -/
def execTxa (s : State) : Host.Outcome State Fault Refusal :=
  .next (((s.setA s.x).setNZ s.x).setCycles (some 2))

/-- TYA (R210). -/
def execTya (s : State) : Host.Outcome State Fault Refusal :=
  .next (((s.setA s.y).setNZ s.y).setCycles (some 2))

/-- TSX (R211). -/
def execTsx (s : State) : Host.Outcome State Fault Refusal :=
  .next (((s.setX s.sp).setNZ s.sp).setCycles (some 2))

/-- TXS (R212): the one transfer that sets no flag. -/
def execTxs (s : State) : Host.Outcome State Fault Refusal :=
  .next ((s.setSp s.x).setCycles (some 2))

end Sys2Proof.Machine
end

