-- ==== Sys2Proof/Machine/ShiftInc.lean ====
section
/-! DEFINITION. Shifts, rotates, increments and decrements (R320-R331). -/

namespace Sys2Proof.Machine

/-- The common part of the four shifts (R320, R321): on A in ACC mode, a read-modify-write in a memory mode. -/
def shiftOperand (o : ShiftOp) (unit : Byte → Shifted) (s : State) : State :=
  match o.operand with
  | none =>
    let sh := unit s.a
    (s.setA sh.r).setShiftFlags sh
  | some m =>
    let g := modifyOperand m (fun v => (unit v).r) s
    g.st.setShiftFlags (unit g.value)

/-- ASL (R322): shift left, 0 in. -/
def execAsl (o : ShiftOp) (s : State) : Host.Outcome State Fault Refusal :=
  .next ((shiftOperand o (fun v => shiftL v false) s).setCycles (some (Instr.asl o).base))

/-- LSR (R323): shift right, 0 in. -/
def execLsr (o : ShiftOp) (s : State) : Host.Outcome State Fault Refusal :=
  .next ((shiftOperand o (fun v => shiftR v false) s).setCycles (some (Instr.lsr o).base))

/-- ROL (R324): rotate left, the old C in. -/
def execRol (o : ShiftOp) (s : State) : Host.Outcome State Fault Refusal :=
  .next ((shiftOperand o (fun v => shiftL v s.flagC) s).setCycles (some (Instr.rol o).base))

/-- ROR (R325): rotate right, the old C in. -/
def execRor (o : ShiftOp) (s : State) : Host.Outcome State Fault Refusal :=
  .next ((shiftOperand o (fun v => shiftR v s.flagC) s).setCycles (some (Instr.ror o).base))

/-- INC (R326): memory + 1 modulo 256; C and V keep their values. -/
def execInc (o : IncOp) (s : State) : Host.Outcome State Fault Refusal :=
  let g := modifyOperand o.operand (fun v => v + 1) s
  .next ((g.st.setNZ (g.value + 1)).setCycles (some (Instr.inc o).base))

/-- DEC (R327): memory - 1 modulo 256; C and V keep their values. -/
def execDec (o : IncOp) (s : State) : Host.Outcome State Fault Refusal :=
  let g := modifyOperand o.operand (fun v => v - 1) s
  .next ((g.st.setNZ (g.value - 1)).setCycles (some (Instr.dec o).base))

/-- INX (R328). -/
def execInx (s : State) : Host.Outcome State Fault Refusal :=
  .next (((s.setX (s.x + 1)).setNZ (s.x + 1)).setCycles (some 2))

/-- INY (R329). -/
def execIny (s : State) : Host.Outcome State Fault Refusal :=
  .next (((s.setY (s.y + 1)).setNZ (s.y + 1)).setCycles (some 2))

/-- DEX (R330). -/
def execDex (s : State) : Host.Outcome State Fault Refusal :=
  .next (((s.setX (s.x - 1)).setNZ (s.x - 1)).setCycles (some 2))

/-- DEY (R331). -/
def execDey (s : State) : Host.Outcome State Fault Refusal :=
  .next (((s.setY (s.y - 1)).setNZ (s.y - 1)).setCycles (some 2))

end Sys2Proof.Machine
end

