-- ==== Sys2Proof/Machine/StackControl.lean ====
section
/-! DEFINITION. The stack and control transfer (R383-R401). -/

namespace Sys2Proof.Machine

/-! ### Stack instructions -/

/-- PHA (R383). -/
def execPha (s : State) : Host.Outcome State Fault Refusal :=
  .next ((push s s.a).setCycles (some 3))

/-- PHP (R384): P itself is unchanged. -/
def execPhp (s : State) : Host.Outcome State Fault Refusal :=
  .next ((push s s.pushedP).setCycles (some 3))

/-- PLA (R385). -/
def execPla (s : State) : Host.Outcome State Fault Refusal :=
  let g := pop s
  .next (((g.st.setA g.value).setNZ g.value).setCycles (some 4))

/-- PLP (R386): every flag from the popped byte, bit 5 forced to 1. -/
def execPlp (s : State) : Host.Outcome State Fault Refusal :=
  let g := pop s
  .next ((g.st.writeP g.value).setCycles (some 4))

/-! ### Jumps, calls, returns. PC is the next instruction's address when a meaning starts (log 11). -/

/-- JMP (R387). -/
def execJmp (o : JmpOp) (s : State) : Host.Outcome State Fault Refusal :=
  let r := resolve o.operand false s
  .next ((r.st.setPc r.ea).setCycles (some (Instr.jmp o).base))

/-- JSR (R388): pushes the address of its last byte, PC - 1. -/
def execJsr (a : Addr) (s : State) : Host.Outcome State Fault Refusal :=
  let r := resolve (.abs a) false s
  .next (((push16 r.st (r.st.pc - 1)).setPc r.ea).setCycles (some 6))

/-- RTS (R389): the popped address + 1. -/
def execRts (s : State) : Host.Outcome State Fault Refusal :=
  let w := pop16 s
  .next ((w.st.setPc (w.value + 1)).setCycles (some 6))

/-- RTI (R390). -/
def execRti (s : State) : Host.Outcome State Fault Refusal :=
  .next ((returnFromTrap s).setCycles (some 6))

/-- BRK (R391): takes the trap. BRK is one byte long, so the return address opaddr + 2 is PC + 1; the byte in between is
not read. -/
def execBrk (s : State) : Host.Outcome State Fault Refusal :=
  .next ((enterTrap s (s.pc + 1) s.cfg.irqVector).setCycles (some 7))

/-! ### Branches -/

/-- Branch execution (R393): PC is the next instruction's address; the target crosses a page when it lies in another page
than that. -/
def branch (taken : Bool) (d : Byte) (s : State) : Host.Outcome State Fault Refusal :=
  let r := resolve (.rel d) false s
  if taken then .next ((r.st.setPc r.ea).setCycles (some (2 + 1 + if cross r.st.pc r.ea then 1 else 0)))
  else .next (r.st.setCycles (some 2))

/-- BPL (R394, R392): taken when N = 0. -/
def execBpl (d : Byte) (s : State) : Host.Outcome State Fault Refusal := branch (!s.flagN) d s

/-- BMI (R395, R392): taken when N = 1. -/
def execBmi (d : Byte) (s : State) : Host.Outcome State Fault Refusal := branch s.flagN d s

/-- BVC (R396, R392): taken when V = 0. -/
def execBvc (d : Byte) (s : State) : Host.Outcome State Fault Refusal := branch (!s.flagV) d s

/-- BVS (R397, R392): taken when V = 1. -/
def execBvs (d : Byte) (s : State) : Host.Outcome State Fault Refusal := branch s.flagV d s

/-- BCC (R398, R392): taken when C = 0. -/
def execBcc (d : Byte) (s : State) : Host.Outcome State Fault Refusal := branch (!s.flagC) d s

/-- BCS (R399, R392): taken when C = 1. -/
def execBcs (d : Byte) (s : State) : Host.Outcome State Fault Refusal := branch s.flagC d s

/-- BNE (R400, R392): taken when Z = 0. -/
def execBne (d : Byte) (s : State) : Host.Outcome State Fault Refusal := branch (!s.flagZ) d s

/-- BEQ (R401, R392): taken when Z = 1. -/
def execBeq (d : Byte) (s : State) : Host.Outcome State Fault Refusal := branch s.flagZ d s

end Sys2Proof.Machine
end

