-- ==== Sys2Proof/Machine/Fetch.lean ====
section
/-! DEFINITION. What a STEP does before the instruction's own effect: opcode fetch, table lookup, operand fetch (R45, R141,
R158); and how an instruction is placed where the next step fetches it. -/

namespace Sys2Proof.Machine

/-- A STEP starts with nothing on the BUS port (log 9). -/
def beginStep (s : State) : State := s.setBus []

/-- An instruction and the state after its bytes were fetched. -/
structure FetchedInstr where
  instr : Instr
  st : State
  deriving DecidableEq, Repr

/-- Fetches the opcode byte and then as many operand bytes as it needs (R45, R101, R141). PC is left past the
instruction (R23). -/
def fetchInstr (s : State) : FetchedInstr :=
  let op := fetch8 s
  match operandCount op.value with
  | 0 => { instr := decodeOp op.value 0 0, st := op.st }
  | 1 =>
    let b1 := fetch8 op.st
    { instr := decodeOp op.value b1.value 0, st := b1.st }
  | _ =>
    let b1 := fetch8 op.st
    let b2 := fetch8 b1.st
    { instr := decodeOp op.value b1.value b2.value, st := b2.st }

/-- Memory with a byte string stored from `a` upward, addresses modulo 65536. -/
def storeBytes : List Byte → Addr → Memory → Memory
  | [], _, m => m
  | b :: rest, a, m => storeBytes rest (a + 1) (m.write a.toNat b)

/-- The machine with a table word's bytes at PC. The fetch needs three more things, and they are set too: the three
addresses are not intercepted, and a RESET has happened (log 5). -/
def placeInstr (s : State) (nbits w : Nat) : State :=
  let fetched := [s.pc, s.pc + 1, s.pc + 2]
  { s with
    mem := storeBytes (tableWordBytes nbits w) s.pc s.mem
    cfg := { s.cfg with ioAddrs := s.cfg.ioAddrs.filter fun a => !fetched.contains a }
    resetDone := true }

end Sys2Proof.Machine
end

