-- ==== Sys2Proof/Machine/Step.lean ====
section
/-! DEFINITION. STEP: one instruction to completion (R45). -/

namespace Sys2Proof.Machine

/-- STEP (R45): fetch at PC, decode, run the instruction. Before the first RESET it is refused (R565). -/
def step (s : State) : Host.Outcome State Fault Refusal :=
  if s.resetDone then
    let f := fetchInstr (beginStep s)
    exec f.instr f.st
  else .refused .beforeReset

/-- `s` with the instruction of a table word stored where `step` fetches next. -/
def State.withFetchWord (s : State) (nbits w : Nat) : State := placeInstr s nbits w

end Sys2Proof.Machine
end

