-- ==== Sys2Proof/Machine/HostPort.lean ====
section
/-! DEFINITION. What the host can do to the engine between steps (R511): STEP, RESET, changing memory, and looking at the
registers (R49). The fourth way of R511, answering bus reads, is the free value of `State.answer`. -/

namespace Sys2Proof.Machine

/-- The machine at engine construction (R565): the parameters and the memory the host placed, and no RESET yet. The zeros
in the registers are never seen: a step and an observation are refused, and RESET writes every register (log 12). -/
def State.constructed (cfg : Config) (mem : Memory) : State where
  a := 0
  x := 0
  y := 0
  sp := 0
  pc := 0
  p := 0
  mem := mem
  cfg := cfg
  draws := 0
  bus := []
  diag := []
  cycles := none
  resetDone := false

/-- One act of the host (R511). -/
inductive HostAct where
  /-- STEP (R45). -/
  | step
  /-- RESET (R46), between steps only (R566). -/
  | reset
  /-- The host places a byte in memory (R570). -/
  | poke (a : Addr) (v : Byte)
  deriving DecidableEq, Repr

/-- The machine after an act of the host. -/
def hostAct (act : HostAct) (s : State) : Host.Outcome State Fault Refusal :=
  match act with
  | .step => step s
  | .reset => .next (performReset s)
  | .poke a v => .next (s.setMem (s.mem.write a.toNat v))

/-- What an observer may read between steps (R49). -/
structure Registers where
  a : Byte
  x : Byte
  y : Byte
  sp : Byte
  pc : Addr
  p : Byte
  deriving DecidableEq, Repr

/-- Register observation (R49): refused before the first RESET (U4). Bit 5 of P reads as 1 (R26). -/
def observe (s : State) : Except Refusal Registers :=
  if s.resetDone then .ok { a := s.a, x := s.x, y := s.y, sp := s.sp, pc := s.pc, p := s.readP }
  else .error .beforeReset

end Sys2Proof.Machine
end

