-- ==== Sys2Proof/Safety.lean ====
section
/-! DEFINITION. What every state of a run has, and what makes a run safe. -/

namespace Sys2Proof.Machine

/-- Well-formed states: memory is in canonical form, and the stored bit 5 of P is 1 (R26). -/
abbrev State.Inv (s : State) : Prop := s.mem.wf ∧ s.p.getLsbD 5 = true

/-- A step that completes: the engine neither faults nor refuses (R500, R583). -/
def Completes (s : State) : Prop := ∃ t, step s = .next t

end Sys2Proof.Machine
end

