-- ==== Sys2Proof/Certificates/Slice0/Obligations.lean ====
section
/-! DEFINITION. The statements for the provers, and the few words they are written in. -/

namespace Sys2Proof.Claims

open Sys2Proof.Machine

/-- `i` run at `s` completes, and the next state has `P`. -/
def Runs (i : Instr) (s : State) (P : State → Prop) : Prop := ∃ t, exec i s = .next t ∧ P t

/-- A, X, Y, SP and PC. -/
def regs (s : State) : Byte × Byte × Byte × Byte × Addr := (s.a, s.x, s.y, s.sp, s.pc)

/-- Every bit of P but those listed is unchanged. -/
def KeepsFlags (changed : List Nat) (s t : State) : Prop := ∀ k, k < 8 → k ∉ changed → t.p.getLsbD k = s.p.getLsbD k

/-- Every byte of memory reads as before. -/
def SameMemory (s t : State) : Prop := ∀ k, t.mem.read k = s.mem.read k

/-- Every byte of memory outside `stored` reads as before. -/
def SameMemoryBut (stored : List Nat) (s t : State) : Prop := ∀ k, k ∉ stored → t.mem.read k = s.mem.read k

/-- The parameters, the DIAG stream and the reset mark are unchanged. -/
def SameRest (s t : State) : Prop := t.cfg = s.cfg ∧ t.diag = s.diag ∧ t.resetDone = s.resetDone

/-- Z and N describe the byte `v` (R260). -/
def NZ (v : Byte) (t : State) : Prop := (t.flagZ = true ↔ v = 0) ∧ (t.flagN = true ↔ 128 ≤ v.toNat)

/-- `v` is a possible answer to a read of `a`: memory's byte, or any byte where the host intercepts (R63, R64). -/
def Answers (s : State) (a : Addr) (v : Byte) : Prop := s.intercepted a = false → v = s.mem.read a.toNat

/-- After `v` was written to `a`, memory holds it, but at an intercepted address (R63, R64). -/
def Stores (s t : State) (a : Addr) (v : Byte) : Prop := s.intercepted a = false → t.mem.read a.toNat = v

/-- The data byte of a reading instruction: the literal, or what a read of the effective address answers. -/
def operandByte (o : Operand) (s : State) : Byte :=
  match o with
  | .imm v => v
  | _ => (resolve o true s).st.answer (resolve o true s).ea

/-- The transactions after a reading instruction got its data byte: the resolver's and one read, or none for a literal,
which came with the fetch (R144, R158). -/
def operandBus (o : Operand) (s : State) : List BusEvent :=
  match o with
  | .imm _ => s.bus
  | _ => (resolve o true s).st.bus ++ [.read (resolve o true s).ea ((resolve o true s).st.answer (resolve o true s).ea)]

/-- The stack slot `k` below SP: `STACK_PAGE ++ (SP - k)` (R380). -/
def slot (s : State) (k : Byte) : Addr := word s.cfg.stackPage (s.sp - k)

/-- The stack slot `k` above SP (R381). -/
def slotUp (s : State) (k : Byte) : Addr := word s.cfg.stackPage (s.sp + k)

/-- A row of an instruction rule's Encoding: opcode byte, length, base cycles. -/
def Row (i : Instr) (e : Byte × Nat × Nat) : Prop :=
  opcodeOf i = e.1 ∧ (encode i).length = e.2.1 ∧ i.base = e.2.2

/-- One instruction `n` times, stopping at the first that does not complete. -/
def execN (i : Instr) : Nat → State → Host.Outcome State Fault Refusal
  | 0, s => .next s
  | n + 1, s =>
    match exec i s with
    | .next t => execN i n t
    | other => other

/-- `s` with bit `k` of P replaced. -/
def withBit (k : Nat) (b : Bool) (s : State) : State := s.setP (setBit s.p k b)

/-! The Encoding of each rule with more than one form: (opcode, length, base cycles), as the rule prints it. In R121 and R591
the spec marks opcode bytes and counts as its decisions D1 and D19. -/

/-- Encoding of LDA (R201). -/
def encLda : ReadOp → Byte × Nat × Nat
  | .imm _ => (0xA9, 2, 2)
  | .zp _ => (0xA5, 2, 3)
  | .zpx _ => (0xB5, 2, 4)
  | .abs _ => (0xAD, 3, 4)
  | .abx _ => (0xBD, 3, 4)
  | .aby _ => (0xB9, 3, 4)
  | .izx _ => (0xA1, 2, 6)
  | .izy _ => (0xB1, 2, 5)

/-- Encoding of LDX (R202). -/
def encLdx : LdxOp → Byte × Nat × Nat
  | .imm _ => (0xA2, 2, 2)
  | .zp _ => (0xA6, 2, 3)
  | .zpy _ => (0xB6, 2, 4)
  | .abs _ => (0xAE, 3, 4)
  | .aby _ => (0xBE, 3, 4)

/-- Encoding of LDY (R203). -/
def encLdy : LdyOp → Byte × Nat × Nat
  | .imm _ => (0xA0, 2, 2)
  | .zp _ => (0xA4, 2, 3)
  | .zpx _ => (0xB4, 2, 4)
  | .abs _ => (0xAC, 3, 4)
  | .abx _ => (0xBC, 3, 4)

/-- Encoding of STA (R204). -/
def encSta : StaOp → Byte × Nat × Nat
  | .zp _ => (0x85, 2, 3)
  | .zpx _ => (0x95, 2, 4)
  | .abs _ => (0x8D, 3, 4)
  | .abx _ => (0x9D, 3, 5)
  | .aby _ => (0x99, 3, 5)
  | .izx _ => (0x81, 2, 6)
  | .izy _ => (0x91, 2, 6)

/-- Encoding of STX (R205). -/
def encStx : StxOp → Byte × Nat × Nat
  | .zp _ => (0x86, 2, 3)
  | .zpy _ => (0x96, 2, 4)
  | .abs _ => (0x8E, 3, 4)

/-- Encoding of STY (R206). -/
def encSty : StyOp → Byte × Nat × Nat
  | .zp _ => (0x84, 2, 3)
  | .zpx _ => (0x94, 2, 4)
  | .abs _ => (0x8C, 3, 4)

/-- Encoding of ADC (R270). -/
def encAdc : ReadOp → Byte × Nat × Nat
  | .imm _ => (0x69, 2, 2)
  | .zp _ => (0x65, 2, 3)
  | .zpx _ => (0x75, 2, 4)
  | .abs _ => (0x6D, 3, 4)
  | .abx _ => (0x7D, 3, 4)
  | .aby _ => (0x79, 3, 4)
  | .izx _ => (0x61, 2, 6)
  | .izy _ => (0x71, 2, 5)

/-- Encoding of SBC (R271). -/
def encSbc : ReadOp → Byte × Nat × Nat
  | .imm _ => (0xE9, 2, 2)
  | .zp _ => (0xE5, 2, 3)
  | .zpx _ => (0xF5, 2, 4)
  | .abs _ => (0xED, 3, 4)
  | .abx _ => (0xFD, 3, 4)
  | .aby _ => (0xF9, 3, 4)
  | .izx _ => (0xE1, 2, 6)
  | .izy _ => (0xF1, 2, 5)

/-- Encoding of CMP (R272). -/
def encCmp : ReadOp → Byte × Nat × Nat
  | .imm _ => (0xC9, 2, 2)
  | .zp _ => (0xC5, 2, 3)
  | .zpx _ => (0xD5, 2, 4)
  | .abs _ => (0xCD, 3, 4)
  | .abx _ => (0xDD, 3, 4)
  | .aby _ => (0xD9, 3, 4)
  | .izx _ => (0xC1, 2, 6)
  | .izy _ => (0xD1, 2, 5)

/-- Encoding of CPX (R273). -/
def encCpx : CpxOp → Byte × Nat × Nat
  | .imm _ => (0xE0, 2, 2)
  | .zp _ => (0xE4, 2, 3)
  | .abs _ => (0xEC, 3, 4)

/-- Encoding of CPY (R274). -/
def encCpy : CpxOp → Byte × Nat × Nat
  | .imm _ => (0xC0, 2, 2)
  | .zp _ => (0xC4, 2, 3)
  | .abs _ => (0xCC, 3, 4)

/-- Encoding of AND (R275). -/
def encAnd : ReadOp → Byte × Nat × Nat
  | .imm _ => (0x29, 2, 2)
  | .zp _ => (0x25, 2, 3)
  | .zpx _ => (0x35, 2, 4)
  | .abs _ => (0x2D, 3, 4)
  | .abx _ => (0x3D, 3, 4)
  | .aby _ => (0x39, 3, 4)
  | .izx _ => (0x21, 2, 6)
  | .izy _ => (0x31, 2, 5)

/-- Encoding of ORA (R276). -/
def encOra : ReadOp → Byte × Nat × Nat
  | .imm _ => (0x09, 2, 2)
  | .zp _ => (0x05, 2, 3)
  | .zpx _ => (0x15, 2, 4)
  | .abs _ => (0x0D, 3, 4)
  | .abx _ => (0x1D, 3, 4)
  | .aby _ => (0x19, 3, 4)
  | .izx _ => (0x01, 2, 6)
  | .izy _ => (0x11, 2, 5)

/-- Encoding of EOR (R277). -/
def encEor : ReadOp → Byte × Nat × Nat
  | .imm _ => (0x49, 2, 2)
  | .zp _ => (0x45, 2, 3)
  | .zpx _ => (0x55, 2, 4)
  | .abs _ => (0x4D, 3, 4)
  | .abx _ => (0x5D, 3, 4)
  | .aby _ => (0x59, 3, 4)
  | .izx _ => (0x41, 2, 6)
  | .izy _ => (0x51, 2, 5)

/-- Encoding of BIT (R278). -/
def encBit : BitOp → Byte × Nat × Nat
  | .zp _ => (0x24, 2, 3)
  | .abs _ => (0x2C, 3, 4)

/-- Encoding of ASL (R322). -/
def encAsl : ShiftOp → Byte × Nat × Nat
  | .zp _ => (0x06, 2, 5)
  | .zpx _ => (0x16, 2, 6)
  | .abs _ => (0x0E, 3, 6)
  | .abx _ => (0x1E, 3, 7)
  | .acc => (0x0A, 1, 2)

/-- Encoding of LSR (R323). -/
def encLsr : ShiftOp → Byte × Nat × Nat
  | .zp _ => (0x46, 2, 5)
  | .zpx _ => (0x56, 2, 6)
  | .abs _ => (0x4E, 3, 6)
  | .abx _ => (0x5E, 3, 7)
  | .acc => (0x4A, 1, 2)

/-- Encoding of ROL (R324). -/
def encRol : ShiftOp → Byte × Nat × Nat
  | .zp _ => (0x26, 2, 5)
  | .zpx _ => (0x36, 2, 6)
  | .abs _ => (0x2E, 3, 6)
  | .abx _ => (0x3E, 3, 7)
  | .acc => (0x2A, 1, 2)

/-- Encoding of ROR (R325). -/
def encRor : ShiftOp → Byte × Nat × Nat
  | .zp _ => (0x66, 2, 5)
  | .zpx _ => (0x76, 2, 6)
  | .abs _ => (0x6E, 3, 6)
  | .abx _ => (0x7E, 3, 7)
  | .acc => (0x6A, 1, 2)

/-- Encoding of INC (R326). -/
def encInc : IncOp → Byte × Nat × Nat
  | .zp _ => (0xE6, 2, 5)
  | .zpx _ => (0xF6, 2, 6)
  | .abs _ => (0xEE, 3, 6)
  | .abx _ => (0xFE, 3, 7)

/-- Encoding of DEC (R327). -/
def encDec : IncOp → Byte × Nat × Nat
  | .zp _ => (0xC6, 2, 5)
  | .zpx _ => (0xD6, 2, 6)
  | .abs _ => (0xCE, 3, 6)
  | .abx _ => (0xDE, 3, 7)

/-- Encoding of JMP (R387). -/
def encJmp : JmpOp → Byte × Nat × Nat
  | .abs _ => (0x4C, 3, 3)
  | .ind _ => (0x6C, 3, 5)

/-- The addresses an instruction stores to, with the resolver and the stack slots its rule names. -/
def storedAt (i : Instr) (s : State) : List Nat :=
  let through (o : Operand) : List Nat := [(resolve o false s).ea.toNat]
  match i with
  | .sta o => through o.operand
  | .stx o => through o.operand
  | .sty o => through o.operand
  | .asl o | .lsr o | .rol o | .ror o =>
    match o.operand with
    | some m => through m
    | none => []
  | .inc o | .dec o => through o.operand
  | .pha | .php => [(slot s 0).toNat]
  | .jsr _ => [(slot s 0).toNat, (slot s 1).toNat]
  | .brk => [(slot s 0).toNat, (slot s 1).toNat, (slot s 2).toNat]
  | _ => []

/-- The bus reads the resolver makes beyond the operand bytes (R160). -/
def pointerReads (o : Operand) : Nat :=
  match o with
  | .ind _ | .izx _ | .izy _ => 2
  | _ => 0

/-- Reads (true) and writes (false) of a list of transactions. -/
def kinds (l : List BusEvent) : List Bool :=
  l.map fun e =>
    match e with
    | .read _ _ => true
    | .write _ _ => false

/-- The transactions of each instruction after the fetch of its bytes: pointer reads, then its own accesses, as R71 lists
them. -/
def accessKinds (i : Instr) : List Bool :=
  let ptr := match i.operand with
    | some o => List.replicate (pointerReads o) true
    | none => []
  match i.mnemonic with
  | .lda | .ldx | .ldy | .adc | .sbc | .cmp | .cpx | .cpy | .and | .ora | .eor | .bit =>
    if i.mode = .imm then [] else ptr ++ [true]
  | .sta | .stx | .sty => ptr ++ [false]
  | .asl | .lsr | .rol | .ror => if i.mode = .acc then [] else ptr ++ [true, false]
  | .inc | .dec => ptr ++ [true, false]
  | .pha | .php => [false]
  | .pla | .plp => [true]
  | .jmp => ptr
  | .jsr => [false, false]
  | .rts => [true, true]
  | .rti => [true, true, true]
  | .brk => [false, false, false, true, true]
  | _ => []

/-- The page of an address as a number (R155). -/
def page (a : Addr) : Nat := a.toNat / 256

/-- The two pages differ (R155). -/
def crosses (base ea : Addr) : Prop := page base ≠ page ea

/-- What a store leaves (R204-R206): `v` at the effective address, no flag, no register. -/
def StoreEffect (o : Operand) (v : Byte) (s t : State) : Prop :=
  let r := resolve o false s
  regs t = regs s ∧ t.p = s.p ∧ t.bus = r.st.bus ++ [.write r.ea v] ∧ Stores s t r.ea v ∧
    SameMemoryBut [r.ea.toNat] s t ∧ SameRest s t

/-- What a reading instruction that writes no memory leaves alone, and its own transactions. -/
def ReadFrame (o : Operand) (flags : List Nat) (s t : State) : Prop :=
  KeepsFlags flags s t ∧ t.bus = operandBus o s ∧ SameMemory s t ∧ SameRest s t

/-- What a read-modify-write leaves (R320): one read and one write at one address, `f` of the byte there. -/
def ModifyEffect (o : Operand) (f : Byte → Byte) (flags : List Nat) (s t : State) : Prop :=
  let r := resolve o false s
  let v := r.st.answer r.ea
  regs t = regs s ∧ t.bus = r.st.bus ++ [.read r.ea v, .write r.ea (f v)] ∧ Stores s t r.ea (f v) ∧
    SameMemoryBut [r.ea.toNat] s t ∧ SameRest s t ∧ NZ (f v) t ∧ KeepsFlags flags s t

/-- What a shift leaves (R321): `f` of A or of memory, and the bit moved out in C. -/
def ShiftEffect (o : ShiftOp) (f : Byte → Byte) (out : Byte → Bool) (s t : State) : Prop :=
  match o.operand with
  | none =>
    regs t = (f s.a, s.x, s.y, s.sp, s.pc) ∧ t.bus = s.bus ∧ SameMemory s t ∧ SameRest s t ∧ NZ (f s.a) t ∧
      t.flagC = out s.a ∧ KeepsFlags [0, 1, 7] s t
  | some m =>
    ModifyEffect m f [0, 1, 7] s t ∧ t.flagC = out ((resolve m false s).st.answer (resolve m false s).ea)

/-- A register-only instruction: nothing on the bus, memory as before. -/
def NoAccess (s t : State) : Prop := t.bus = s.bus ∧ SameMemory s t ∧ SameRest s t

/-- What a compare of `reg` with the operand byte leaves (R267): C for no borrow, Z for equal, N of the difference. -/
def CompareEffect (o : Operand) (reg : Byte) (s t : State) : Prop :=
  let m := operandByte o s
  regs t = regs s ∧ (t.flagC = true ↔ m.toNat ≤ reg.toNat) ∧ (t.flagZ = true ↔ reg = m) ∧
    (t.flagN = true ↔ 128 ≤ (reg - m).toNat) ∧ ReadFrame o [0, 1, 7] s t

/-- What a branch leaves (R393) when its condition is `taken`. -/
def BranchEffect (taken : Prop) (d : Byte) (s t : State) : Prop :=
  let target := BitVec.ofInt 16 (s.pc.toNat + d.toInt)
  (t.a = s.a ∧ t.x = s.x ∧ t.y = s.y ∧ t.sp = s.sp ∧ t.p = s.p ∧ NoAccess s t) ∧
    (taken → t.pc = target ∧ (crosses s.pc target → t.cycles = some 4) ∧ (¬ crosses s.pc target → t.cycles = some 3)) ∧
    (¬ taken → t.pc = s.pc ∧ t.cycles = some 2)

/-- What a flag instruction leaves: bit `k` of P is `b`, all else is as before, two cycles. -/
def FlagEffect (k : Nat) (b : Bool) (s t : State) : Prop :=
  t.p.getLsbD k = b ∧ KeepsFlags [k] s t ∧ regs t = regs s ∧ NoAccess s t ∧ t.cycles = some 2

end Sys2Proof.Claims

open Sys2Proof Sys2Proof.Machine Sys2Proof.Claims

/-! ### Encoding -/

/-- Decoding the bytes of a well-formed instruction gives it back, with every operand at every value, whatever bytes
follow (R100-R104, R122). -/
def Obligations.DecodeEncodeRoundTrip : Prop :=
  ∀ (i : Instr) (rest : List Byte), i.wf = true → decode (encode i ++ rest) = .ok (i, rest)

/-- Each byte string has one reading: what the decoder gives is well formed, and its bytes and the rest are the string. -/
def Obligations.DecodedBytesAreTheEncoding : Prop :=
  ∀ (bytes : List Byte) (i : Instr) (rest : List Byte),
    decode bytes = .ok (i, rest) → i.wf = true ∧ bytes = encode i ++ rest

/-- Words written out from R121 and R123 decode to the instructions they stand for, one of each family. -/
def Obligations.WordsOfTheSpecDecode : Prop :=
  decode [0xA9, 0x01, 0x85, 0x00] = .ok (.lda (.imm 0x01), [0x85, 0x00]) ∧
    decode [0x85, 0x00] = .ok (.sta (.zp 0x00), []) ∧
    decode [0xBE, 0x34, 0x12] = .ok (.ldx (.aby 0x1234), []) ∧
    decode [0x71, 0x20] = .ok (.adc (.izy 0x20), []) ∧
    decode [0x6A] = .ok (.ror .acc, []) ∧
    decode [0x6C, 0xFF, 0x10] = .ok (.jmp (.ind 0x10FF), []) ∧
    decode [0xD0, 0xFB] = .ok (.bne 0xFB, []) ∧
    decode [0x78] = .ok (.sei, []) ∧
    decode [0x02, 0xA9] = .ok (.undef 0x02, [0xA9])

/-- Three bytes always hold an instruction, and an opcode byte is `undef` exactly when R125 lists it; then it is one byte
long. The list of R125 is the spec's decision D1. -/
def Obligations.UndefinedBytesAreThoseListed : Prop :=
  ∀ (op b1 b2 : Byte) (rest : List Byte),
    (∃ i r, decode (op :: b1 :: b2 :: rest) = .ok (i, r)) ∧
      (op ∈ undefinedOpcodes ↔ decode (op :: b1 :: b2 :: rest) = .ok (.undef op, b1 :: b2 :: rest))

/-- Each instruction has the table's row (R120): its own opcode, mnemonic, mode and base count; the class is `branch` for
the relative mode, and `page` exactly for the reading instructions in ABX, ABY and IZY (R157). -/
def Obligations.TableRowOfEachInstruction : Prop :=
  ∀ i : Instr, i.mnemonic ≠ .undef →
    ∃ r, rowOf (opcodeOf i) = some r ∧ r.opcode = opcodeOf i ∧ r.mnemonic = i.mnemonic ∧ r.mode = i.mode ∧
      r.cycles = i.base ∧ (encode i).length = 1 + r.mode.operandBytes ∧ (r.extra = .branch ↔ i.mode = .rel) ∧
      (r.extra = .page ↔ i.mode ∈ [Mode.abx, .aby, .izy] ∧
        i.mnemonic ∉ [Mnemonic.sta, .asl, .lsr, .rol, .ror, .inc, .dec])

/-! ### The step -/

/-- A STEP is the decoded instruction's own effect at the state that the fetch of its bytes leaves (R45, R158): the bytes
are the answers of successive fetches at PC, each of which moves PC on by one. -/
def Obligations.StepRunsTheDecodedInstruction : Prop :=
  ∀ (s : State) (i : Instr) (rest : List Byte),
    let f0 := fetch8 (s.setBus [])
    let f1 := fetch8 f0.st
    let f2 := fetch8 f1.st
    s.resetDone = true → decode [f0.value, f1.value, f2.value] = .ok (i, rest) →
      step s = exec i (if (encode i).length = 1 then f0.st else if (encode i).length = 2 then f1.st else f2.st)

/-- On the default path the bytes fetched are memory's at PC, PC + 1 and PC + 2 modulo 65536, the instruction starts with
PC past its own bytes, and the fetch is seen on the bus in ascending order; nothing else changes (R23, R141, R158). -/
def Obligations.FetchOnTheDefaultPath : Prop :=
  ∀ (s : State) (i : Instr) (rest : List Byte),
    let at_ (k : Addr) : Byte := s.mem.read (s.pc + k).toNat
    s.resetDone = true → (∀ k : Addr, k.toNat < 3 → s.intercepted (s.pc + k) = false) →
      decode [at_ 0, at_ 1, at_ 2] = .ok (i, rest) →
        step s = exec i ((s.setPc (s.pc + BitVec.ofNat 16 (encode i).length)).setBus
          (([0, 1, 2].take (encode i).length).map fun k => BusEvent.read (s.pc + k) (at_ k)))

/-- A step, or a look at the registers, before the first RESET is refused. R565 marks this as the spec's decision D22. -/
def Obligations.RefusedBeforeReset : Prop :=
  ∀ s : State, s.resetDone = false → step s = .refused .beforeReset ∧ observe s = .error .beforeReset

/-- After a RESET every step completes, and the next one can follow: no instruction and no condition stops the engine
(R500, R583). It reports a count of cycles, from 2 to 7 with the source's UNDEF_CYCLES of 2 (R45). That a RESET must have
happened is the spec's decision D22 (R565, log 12), and the bounds rest on the base counts, its decision D19 (log 7). -/
def Obligations.EveryStepCompletesAndReportsCycles : Prop :=
  ∀ s : State, s.resetDone = true →
    ∃ t n, step s = .next t ∧ t.resetDone = true ∧ t.cycles = some n ∧ (s.cfg.undefCycles = 2 → 2 ≤ n ∧ n ≤ 7)

/-- A step keeps memory in canonical form and the stored bit 5 of P at 1 (R26), from every state that has both. -/
def Obligations.StepKeepsInv : Prop :=
  ∀ s t : State, s.Inv → step s = .next t → t.Inv

/-- The state after reset has the invariant. -/
def Obligations.ResetStateHasInv : Prop := State.reset.Inv

/-- Every act of the host keeps canonical memory, and a RESET sets bit 5 of P whatever it was (R26, R560). -/
def Obligations.HostActsKeepInv : Prop :=
  ∀ (act : HostAct) (s t : State), hostAct act s = .next t → s.mem.wf →
    t.mem.wf ∧ (act = .reset → t.Inv) ∧ (s.Inv → t.Inv)

/-- An instruction that does not transfer control ends with PC past its own bytes (R23; C1). -/
def Obligations.PlainStepsAdvancePc : Prop :=
  ∀ s : State,
    let i := (fetchInstr (beginStep s)).instr
    s.resetDone = true → i.mode ≠ .rel → i.mnemonic ∉ [Mnemonic.jmp, .jsr, .rts, .rti, .brk] →
      ∃ t, step s = .next t ∧ t.pc = s.pc + BitVec.ofNat 16 (encode i).length

/-- Each instruction reports at least its base count, at most 1 more where its row says `page`, at most 2 more where it
says `branch`, and exactly it elsewhere (R592, which the spec derives from R590 and R591). -/
def Obligations.CycleBounds : Prop :=
  ∀ (i : Instr) (s : State), i.mnemonic ≠ .undef → Runs i s fun t =>
    ∃ n r, t.cycles = some n ∧ rowOf (opcodeOf i) = some r ∧ r.cycles ≤ n ∧
      (r.extra = .none → n = r.cycles) ∧ (r.extra = .page → n ≤ r.cycles + 1) ∧ (r.extra = .branch → n ≤ r.cycles + 2)

/-- DIAG gets one event from an undefined opcode and none from any other instruction (R47); no instruction changes the
parameters or the reset mark. -/
def Obligations.DiagOnlyFromUndefined : Prop :=
  ∀ (i : Instr) (s : State), Runs i s fun t =>
    (∀ op, i = .undef op → t.diag = s.diag ++ [.undefinedOpcode (s.pc - 1) op]) ∧
      (i.mnemonic ≠ .undef → t.diag = s.diag) ∧ t.cfg = s.cfg ∧ t.resetDone = s.resetDone

/-- Each instruction makes, after its fetch, exactly the transactions R71 and R160 list for it, in order, and no others
(R72, the spec's decision D13). -/
def Obligations.AccessesOfEachInstruction : Prop :=
  ∀ (i : Instr) (s : State), Runs i s fun t => ∃ l, t.bus = s.bus ++ l ∧ kinds l = accessKinds i

/-- The bytes of a table word placed at PC are what the next step decodes and runs, at the state with PC past them; it
holds of every state (log 5). -/
def Obligations.PlacedInstructionRuns : Prop :=
  ∀ (s : State) (nbits w : Nat) (i : Instr), decodeTableWord nbits w = some i →
    ∃ u : State, step (s.withFetchWord nbits w) = exec i u ∧
      regs u = (s.a, s.x, s.y, s.sp, s.pc + BitVec.ofNat 16 (encode i).length) ∧ u.p = s.p ∧
      SameMemoryBut [s.pc.toNat, (s.pc + 1).toNat, (s.pc + 2).toNat] s u

/-! ### Who may write what: every instruction, every state -/

/-- A, X and Y change only in the instructions R21 lists as writing them, SP only in those of R24, and PC, once past the
instruction, only in control transfers (R23). -/
def Obligations.WritersOfTheRegisters : Prop :=
  ∀ (i : Instr) (s : State), Runs i s fun t =>
    (i.mnemonic ∉ [Mnemonic.lda, .txa, .tya, .pla, .adc, .sbc, .and, .ora, .eor] → i.mode ≠ .acc → t.a = s.a) ∧
      (i.mnemonic ∉ [Mnemonic.ldx, .tax, .tsx, .inx, .dex] → t.x = s.x) ∧
      (i.mnemonic ∉ [Mnemonic.ldy, .tay, .iny, .dey] → t.y = s.y) ∧
      (i.mnemonic ∉ [Mnemonic.txs, .pha, .php, .pla, .plp, .jsr, .rts, .brk, .rti] → t.sp = s.sp) ∧
      (i.mode ≠ .rel → i.mnemonic ∉ [Mnemonic.jmp, .jsr, .rts, .rti, .brk] → t.pc = s.pc)

/-- C, V, I, D and B change only in the instructions R27 and R30-R33 list (C2), and the stored bit 5 only in PLP and RTI:
in particular no load, transfer, logic, increment or decrement touches C or V. -/
def Obligations.WritersOfTheFlags : Prop :=
  ∀ (i : Instr) (s : State), Runs i s fun t =>
    (i.mnemonic ∉ [Mnemonic.adc, .sbc, .cmp, .cpx, .cpy, .asl, .lsr, .rol, .ror, .sec, .clc, .plp, .rti] →
        t.flagC = s.flagC) ∧
      (i.mnemonic ∉ [Mnemonic.adc, .sbc, .bit, .clv, .plp, .rti] → t.flagV = s.flagV) ∧
      (i.mnemonic ∉ [Mnemonic.sei, .cli, .brk, .plp, .rti] → t.flagI = s.flagI) ∧
      (i.mnemonic ∉ [Mnemonic.sed, .cld, .plp, .rti] → t.flagD = s.flagD) ∧
      (i.mnemonic ∉ [Mnemonic.plp, .rti] → t.flagB = s.flagB ∧ t.p.getLsbD 5 = s.p.getLsbD 5)

/-- Z and N change only in the instructions of R260's list, BIT, PLP and RTI (R28, R29); TXS, the stores, the pushes, the
jumps, the branches and the flag instructions leave them. -/
def Obligations.WritersOfZeroAndNegative : Prop :=
  ∀ (i : Instr) (s : State),
    i.mnemonic ∈ [Mnemonic.sta, .stx, .sty, .txs, .pha, .php, .jmp, .jsr, .rts, .brk, .bpl, .bmi, .bvc, .bvs, .bcc,
      .bcs, .bne, .beq, .clc, .sec, .cli, .sei, .cld, .sed, .clv, .nop, .undef] →
    Runs i s fun t => t.flagZ = s.flagZ ∧ t.flagN = s.flagN

/-- Every byte of memory outside the addresses the instruction stores to reads as before, for every instruction; most
store nothing. -/
def Obligations.MemoryChangesOnlyWhereStored : Prop :=
  ∀ (i : Instr) (s : State), Runs i s fun t => SameMemoryBut (storedAt i s) s t

/-- No instruction but PLP and RTI, which overwrite it, can tell what the stored B is: run with another B, it does the
same and keeps that B (R33, where the spec's decisions D15 to D17 are named). -/
def Obligations.BreakBitIsUnobservable : Prop :=
  ∀ (i : Instr) (s : State) (b : Bool),
    (i.mnemonic ∈ [Mnemonic.plp, .rti] → exec i (withBit 4 b s) = exec i s) ∧
      (i.mnemonic ∉ [Mnemonic.plp, .rti] → Runs i s fun t => exec i (withBit 4 b s) = .next (withBit 4 b t))

/-- No decimal mode (R266): ADC and SBC give the binary sum whatever D holds; and run with another D, every instruction
that does not load, push or write D does the same and keeps it (R32). -/
def Obligations.DecimalFlagSteersNothing : Prop :=
  (∀ (o : ReadOp) (s : State) (b : Bool),
      (Runs (.adc o) (withBit 3 b s) fun t =>
        t.a = BitVec.ofNat 8 (s.a.toNat + (operandByte o.operand s).toNat + bitNat s.flagC)) ∧
      (Runs (.sbc o) (withBit 3 b s) fun t =>
        t.a = BitVec.ofNat 8 (s.a.toNat + (255 - (operandByte o.operand s).toNat) + bitNat s.flagC))) ∧
    (∀ (i : Instr) (s : State) (b : Bool), i.mnemonic ∉ [Mnemonic.php, .brk, .plp, .rti, .cld, .sed] →
      Runs i s fun t => exec i (withBit 3 b s) = .next (withBit 3 b t))

/-- I masks nothing (R31, R510, the spec's decision D18): run with another I, every instruction that does not load, push or
write I does the same and keeps it. -/
def Obligations.InterruptFlagSteersNothing : Prop :=
  ∀ (i : Instr) (s : State) (b : Bool), i.mnemonic ∉ [Mnemonic.php, .brk, .plp, .rti, .cli, .sei] →
    Runs i s fun t => exec i (withBit 2 b s) = .next (withBit 2 b t)

/-! ### Reset -/

/-- RESET (R560-R562): A, X, Y zeroed, SP and P from their parameters with bit 5 of P set, PC from the vector, low byte
first; exactly two transactions; memory, parameters and DIAG as before; no cycle count. With the values the spec takes (its
decisions D4, D6, D7) SP is 0xFD and P is 0x24. -/
def Obligations.ResetSequence : Prop :=
  ∀ s : State,
    let t := performReset s
    ∃ lo hi, regs t = (0, 0, 0, s.cfg.resetSp, word hi lo) ∧ t.p = s.cfg.resetP ||| 0x20 ∧
      t.bus = [.read s.cfg.resetVector lo, .read (s.cfg.resetVector + 1) hi] ∧ Answers s s.cfg.resetVector lo ∧
      Answers s (s.cfg.resetVector + 1) hi ∧ t.mem = s.mem ∧ t.cfg = s.cfg ∧ t.diag = s.diag ∧ t.cycles = none ∧
      t.resetDone = true ∧ (s.cfg = Config.spec → t.sp = 0xFD ∧ t.p = 0x24)

/-- `State.reset` is what RESET makes of the machine at construction with an empty memory (logs 4 and 5: those contents and
so PC = 0 are the model's choice). -/
def Obligations.ResetStateIsAResetMachine : Prop :=
  performReset (State.constructed Config.spec []) = State.reset

/-! ### The bus and memory -/

/-- On the default path a read answers `M[a]` and changes nothing in memory, and a write sets `M[a]` and no other byte
(R63); so a read after a write answers what the latest write to its address left (R77). The last clause asks nothing of
the address written: that a write the host intercepts leaves every other byte of memory is the model's choice (log 2). -/
def Obligations.DefaultPathIsTheArray : Prop :=
  ∀ (s : State) (a b : Addr) (v : Byte),
    (s.intercepted a = false → (busRead s a).value = s.mem.read a.toNat ∧ (busRead s a).st.mem = s.mem) ∧
      (s.intercepted a = false → ∀ k, (busWrite s a v).mem.read k = if k = a.toNat then v else s.mem.read k) ∧
      (s.intercepted b = false → (busRead (busWrite s a v) b).value =
        if b = a then v else s.mem.read b.toNat)

/-- Each read of an intercepted address answers a free byte of its own, whatever memory holds; a write is issued, and memory
there holds a free byte after it (R64, U5, U6). How the free bytes are counted is the model's choice (log 2). -/
def Obligations.InterceptedAddressesAreFree : Prop :=
  ∀ (s : State) (a : Addr) (v : Byte), s.intercepted a = true →
    (busRead s a).value = Config.hostByte s.draws ∧ (busRead (busRead s a).st a).value = Config.hostByte (s.draws + 1) ∧
      (busRead s a).st.mem = s.mem ∧ (busWrite s a v).bus = s.bus ++ [.write a v] ∧
      (busWrite s a v).mem.read a.toNat = Config.hostByte s.draws ∧ (busWrite s a v).draws = s.draws + 1

/-- A store is seen by the next fetch of that address (R80, R581). -/
def Obligations.StoresAreFetched : Prop :=
  ∀ (s : State) (a : Addr), s.intercepted a = false →
    Runs (.sta (.abs a)) s fun t => (fetch8 (t.setPc a)).value = s.a

/-! ### The resolver -/

/-- The modes without a pointer (R144-R150, R154): zero-page sums stay in zero page, 16-bit sums wrap modulo 65536, a
displacement is signed and counts from the next instruction; the extra cycle is paid for a crossed page only. The wraps
are the spec's decisions D9 and D12. -/
def Obligations.EffectiveAddressesWithoutPointer : Prop :=
  ∀ (s : State) (pen : Bool) (v z d : Byte) (a : Addr),
    resolve (.imm v) pen s = ⟨s.pc - 1, 0, s⟩ ∧
      resolve (.zp z) pen s = ⟨BitVec.ofNat 16 z.toNat, 0, s⟩ ∧
      resolve (.zpx z) pen s = ⟨BitVec.ofNat 16 ((z.toNat + s.x.toNat) % 256), 0, s⟩ ∧
      resolve (.zpy z) pen s = ⟨BitVec.ofNat 16 ((z.toNat + s.y.toNat) % 256), 0, s⟩ ∧
      resolve (.abs a) pen s = ⟨a, 0, s⟩ ∧
      (let ea := BitVec.ofNat 16 (a.toNat + s.x.toNat)
       resolve (.abx a) pen s = ⟨ea, if pen = true ∧ page a ≠ page ea then 1 else 0, s⟩) ∧
      (let ea := BitVec.ofNat 16 (a.toNat + s.y.toNat)
       resolve (.aby a) pen s = ⟨ea, if pen = true ∧ page a ≠ page ea then 1 else 0, s⟩) ∧
      resolve (.rel d) pen s = ⟨BitVec.ofInt 16 (s.pc.toNat + d.toInt), 0, s⟩

/-- IND (R151), which JMP 0x6C alone uses: two reads, low then high, and the high byte comes from the pointer's own page. -/
def Obligations.IndirectPointerStaysInItsPage : Prop :=
  (∀ i : Instr, i.mode = .ind → opcodeOf i = 0x6C ∧ ∃ a, i = .jmp (.ind a)) ∧
    ∀ (s : State) (pen : Bool) (a : Addr),
      let r := resolve (.ind a) pen s
      let q := BitVec.ofNat 16 (a.toNat / 256 * 256 + (a.toNat + 1) % 256)
      (a.toNat % 256 ≠ 255 → q = a + 1) ∧ (a.toNat % 256 = 255 → q.toNat = a.toNat - 255) ∧
        ∃ lo hi, r.st.bus = s.bus ++ [.read a lo, .read q hi] ∧ Answers s a lo ∧ Answers s q hi ∧
          r.ea.toNat = hi.toNat * 256 + lo.toNat ∧ r.extra = 0

/-- IZX and IZY (R152, R153): two reads in zero page, low then high; X is added before and Y after, and only Y can cross a
page. The zero-page wraps are the spec's decisions D10 and D11, the 16-bit wrap is D12. -/
def Obligations.EffectiveAddressesThroughPointers : Prop :=
  ∀ (s : State) (pen : Bool) (z : Byte),
    let twoReads (r : Resolved) (p q : Addr) (lo hi : Byte) : Prop :=
      r.st.bus = s.bus ++ [.read p lo, .read q hi] ∧ Answers s p lo ∧ Answers s q hi
    (let r := resolve (.izx z) pen s
     ∃ lo hi, twoReads r (BitVec.ofNat 16 ((z.toNat + s.x.toNat) % 256))
         (BitVec.ofNat 16 ((z.toNat + s.x.toNat + 1) % 256)) lo hi ∧
       r.ea.toNat = hi.toNat * 256 + lo.toNat ∧ r.extra = 0) ∧
      (let r := resolve (.izy z) pen s
       ∃ lo hi, twoReads r (BitVec.ofNat 16 z.toNat) (BitVec.ofNat 16 ((z.toNat + 1) % 256)) lo hi ∧
         r.ea.toNat = (hi.toNat * 256 + lo.toNat + s.y.toNat) % 65536 ∧
         r.extra = if pen = true ∧ hi.toNat ≠ page r.ea then 1 else 0)

/-- The resolver writes nothing: no register, no flag, no memory (R140, R159), and reads a pointer's two bytes or none
(R160, which the spec derives). That PC stays is the model's reading: the step has moved it past the operand bytes already
(log 11), where R140 has the resolver do so. -/
def Obligations.ResolverOnlyReads : Prop :=
  ∀ (o : Operand) (pen : Bool) (s : State),
    let t := (resolve o pen s).st
    regs t = regs s ∧ t.p = s.p ∧ t.mem = s.mem ∧ SameRest s t ∧ t.cycles = s.cycles ∧
      ∃ l, t.bus = s.bus ++ l ∧ kinds l = List.replicate (pointerReads o) true

/-! ### The adder -/

/-- The adder (R262-R264): the sum modulo 256, carry past 8 bits, V by the sign-mismatch test, which is two's-complement
overflow. -/
def Obligations.AdderIsExact : Prop :=
  ∀ (a b : Byte) (cin : Bool),
    let r := addC a b cin
    r.r.toNat = (a.toNat + b.toNat + bitNat cin) % 256 ∧ (r.c = true ↔ 255 < a.toNat + b.toNat + bitNat cin) ∧
      (r.v = true ↔ a.msb = b.msb ∧ r.r.msb ≠ a.msb) ∧
      (r.v = true ↔ a.toInt + b.toInt + bitNat cin < -128 ∨ 127 < a.toInt + b.toInt + bitNat cin)

/-- Subtraction with borrow (R265): a - m - (1 - C) modulo 256, carry out exactly when no borrow occurred, V for
two's-complement overflow of the difference. -/
def Obligations.SubtractionIsExact : Prop :=
  ∀ (a m : Byte) (cin : Bool),
    let r := subC a m cin
    let d : Int := (a.toNat : Int) - m.toNat - (1 - bitNat cin)
    let sd : Int := a.toInt - m.toInt - (1 - bitNat cin)
    r = addC a (~~~m &&& 0xFF) cin ∧ (r.r.toNat : Int) = d % 256 ∧ (r.c = true ↔ 0 ≤ d) ∧
      (r.v = true ↔ sd < -128 ∨ 127 < sd)

/-! ### Loads, stores, transfers -/

/-- LDA, LDX and LDY (R201-R203), every form. -/
def Obligations.LoadsTakeTheOperandByte : Prop :=
  (∀ (o : ReadOp) (s : State), Row (.lda o) (encLda o) ∧ Runs (.lda o) s fun t =>
      let v := operandByte o.operand s
      regs t = (v, s.x, s.y, s.sp, s.pc) ∧ NZ v t ∧ ReadFrame o.operand [1, 7] s t ∧
        t.cycles = some ((encLda o).2.2 + (resolve o.operand true s).extra)) ∧
    (∀ (o : LdxOp) (s : State), Row (.ldx o) (encLdx o) ∧ Runs (.ldx o) s fun t =>
      let v := operandByte o.operand s
      regs t = (s.a, v, s.y, s.sp, s.pc) ∧ NZ v t ∧ ReadFrame o.operand [1, 7] s t ∧
        t.cycles = some ((encLdx o).2.2 + (resolve o.operand true s).extra)) ∧
    (∀ (o : LdyOp) (s : State), Row (.ldy o) (encLdy o) ∧ Runs (.ldy o) s fun t =>
      let v := operandByte o.operand s
      regs t = (s.a, s.x, v, s.sp, s.pc) ∧ NZ v t ∧ ReadFrame o.operand [1, 7] s t ∧
        t.cycles = some ((encLdy o).2.2 + (resolve o.operand true s).extra))

/-- STA, STX and STY (R204-R206), every form: one write at the effective address, base cycles, no flag. -/
def Obligations.StoresWriteTheEffectiveAddress : Prop :=
  (∀ (o : StaOp) (s : State), Row (.sta o) (encSta o) ∧ Runs (.sta o) s fun t =>
      StoreEffect o.operand s.a s t ∧ t.cycles = some (encSta o).2.2) ∧
    (∀ (o : StxOp) (s : State), Row (.stx o) (encStx o) ∧ Runs (.stx o) s fun t =>
      StoreEffect o.operand s.x s t ∧ t.cycles = some (encStx o).2.2) ∧
    (∀ (o : StyOp) (s : State), Row (.sty o) (encSty o) ∧ Runs (.sty o) s fun t =>
      StoreEffect o.operand s.y s t ∧ t.cycles = some (encSty o).2.2)

/-- TAX, TAY, TXA, TYA and TSX (R207-R211) copy a register and set N and Z; TXS copies X to SP and is the one transfer
that sets no flag (R212, the spec's decision D36), and the next push goes to `STACK_PAGE ++ X`; 2 cycles each, nothing on
the bus. -/
def Obligations.TransfersCopyARegister : Prop :=
  ∀ s : State,
    let done (v : Byte) (t : State) : Prop := NZ v t ∧ KeepsFlags [1, 7] s t ∧ NoAccess s t ∧ t.cycles = some 2
    (encode .tax = [0xAA] ∧ Runs .tax s fun t => regs t = (s.a, s.a, s.y, s.sp, s.pc) ∧ done s.a t) ∧
      (encode .tay = [0xA8] ∧ Runs .tay s fun t => regs t = (s.a, s.x, s.a, s.sp, s.pc) ∧ done s.a t) ∧
      (encode .txa = [0x8A] ∧ Runs .txa s fun t => regs t = (s.x, s.x, s.y, s.sp, s.pc) ∧ done s.x t) ∧
      (encode .tya = [0x98] ∧ Runs .tya s fun t => regs t = (s.y, s.x, s.y, s.sp, s.pc) ∧ done s.y t) ∧
      (encode .tsx = [0xBA] ∧ Runs .tsx s fun t => regs t = (s.a, s.sp, s.y, s.sp, s.pc) ∧ done s.sp t) ∧
      (encode .txs = [0x9A] ∧ Runs .txs s fun t =>
        regs t = (s.a, s.x, s.y, s.x, s.pc) ∧ t.p = s.p ∧ NoAccess s t ∧ t.cycles = some 2 ∧
          Runs .pha t fun u => u.sp = s.x - 1 ∧ u.bus = s.bus ++ [.write (word s.cfg.stackPage s.x) s.a])

/-! ### ALU instructions -/

/-- ADC and SBC (R270, R271), every form: binary, whatever D holds. -/
def Obligations.AddAndSubtractWithCarry : Prop :=
  (∀ (o : ReadOp) (s : State), Row (.adc o) (encAdc o) ∧ Runs (.adc o) s fun t =>
      let m := operandByte o.operand s
      let sum := s.a.toNat + m.toNat + bitNat s.flagC
      regs t = (BitVec.ofNat 8 sum, s.x, s.y, s.sp, s.pc) ∧ (t.flagC = true ↔ 255 < sum) ∧
        (t.flagV = true ↔ s.a.msb = m.msb ∧ t.a.msb ≠ s.a.msb) ∧ NZ t.a t ∧ ReadFrame o.operand [0, 1, 6, 7] s t ∧
        t.cycles = some ((encAdc o).2.2 + (resolve o.operand true s).extra)) ∧
    (∀ (o : ReadOp) (s : State), Row (.sbc o) (encSbc o) ∧ Runs (.sbc o) s fun t =>
      let m := operandByte o.operand s
      let sum := s.a.toNat + (255 - m.toNat) + bitNat s.flagC
      regs t = (BitVec.ofNat 8 sum, s.x, s.y, s.sp, s.pc) ∧ (t.flagC = true ↔ 255 < sum) ∧
        (t.flagV = true ↔ s.a.msb ≠ m.msb ∧ t.a.msb ≠ s.a.msb) ∧ NZ t.a t ∧ ReadFrame o.operand [0, 1, 6, 7] s t ∧
        t.cycles = some ((encSbc o).2.2 + (resolve o.operand true s).extra))

/-- CMP, CPX and CPY (R272-R274, R267), every form: C, Z and N of the difference; no register is written and V stays. The
carry-in of 1 is the spec's decision D33. -/
def Obligations.ComparesSetFlagsOnly : Prop :=
  (∀ (o : ReadOp) (s : State), Row (.cmp o) (encCmp o) ∧ Runs (.cmp o) s fun t =>
      CompareEffect o.operand s.a s t ∧
        t.cycles = some ((encCmp o).2.2 + (resolve o.operand true s).extra)) ∧
    (∀ (o : CpxOp) (s : State), Row (.cpx o) (encCpx o) ∧ Runs (.cpx o) s fun t =>
      CompareEffect o.operand s.x s t ∧ t.cycles = some (encCpx o).2.2) ∧
    (∀ (o : CpxOp) (s : State), Row (.cpy o) (encCpy o) ∧ Runs (.cpy o) s fun t =>
      CompareEffect o.operand s.y s t ∧ t.cycles = some (encCpy o).2.2)

/-- AND, ORA and EOR (R275-R277), every form. -/
def Obligations.LogicOnTheAccumulator : Prop :=
  ∀ (o : ReadOp) (s : State),
    let m := operandByte o.operand s
    let extra := (resolve o.operand true s).extra
    let done (r : Byte) (t : State) : Prop :=
      regs t = (r, s.x, s.y, s.sp, s.pc) ∧ NZ r t ∧ ReadFrame o.operand [1, 7] s t
    (Row (.and o) (encAnd o) ∧ Runs (.and o) s fun t =>
        done (s.a &&& m) t ∧ t.cycles = some ((encAnd o).2.2 + extra)) ∧
      (Row (.ora o) (encOra o) ∧ Runs (.ora o) s fun t =>
        done (s.a ||| m) t ∧ t.cycles = some ((encOra o).2.2 + extra)) ∧
      (Row (.eor o) (encEor o) ∧ Runs (.eor o) s fun t =>
        done (s.a ^^^ m) t ∧ t.cycles = some ((encEor o).2.2 + extra))

/-- BIT (R278, the spec's decision D34): Z from A and M, N and V from bits 7 and 6 of M; A and C stay. -/
def Obligations.BitTestsMemory : Prop :=
  ∀ (o : BitOp) (s : State), Row (.bit o) (encBit o) ∧ Runs (.bit o) s fun t =>
    let m := operandByte o.operand s
    regs t = regs s ∧ (t.flagZ = true ↔ s.a &&& m = 0) ∧ t.flagN = m.getLsbD 7 ∧ t.flagV = m.getLsbD 6 ∧
      ReadFrame o.operand [1, 6, 7] s t ∧ t.cycles = some (encBit o).2.2

/-! ### Shifts, increments, decrements -/

/-- ASL, LSR, ROL and ROR (R321-R325), on A and on memory: one bit moves out to C, and 0 or the old C moves in. The bit
movement is the spec's decision D35. -/
def Obligations.ShiftsMoveOneBit : Prop :=
  ∀ (o : ShiftOp) (s : State),
    (Row (.asl o) (encAsl o) ∧ Runs (.asl o) s fun t =>
        ShiftEffect o (fun v => BitVec.ofNat 8 (2 * v.toNat)) (fun v => v.getLsbD 7) s t ∧
          t.cycles = some (encAsl o).2.2) ∧
      (Row (.lsr o) (encLsr o) ∧ Runs (.lsr o) s fun t =>
        ShiftEffect o (fun v => BitVec.ofNat 8 (v.toNat / 2)) (fun v => v.getLsbD 0) s t ∧
          t.cycles = some (encLsr o).2.2) ∧
      (Row (.rol o) (encRol o) ∧ Runs (.rol o) s fun t =>
        ShiftEffect o (fun v => BitVec.ofNat 8 (2 * v.toNat + bitNat s.flagC)) (fun v => v.getLsbD 7) s t ∧
          t.cycles = some (encRol o).2.2) ∧
      (Row (.ror o) (encRor o) ∧ Runs (.ror o) s fun t =>
        ShiftEffect o (fun v => BitVec.ofNat 8 (v.toNat / 2 + 128 * bitNat s.flagC)) (fun v => v.getLsbD 0) s t ∧
          t.cycles = some (encRor o).2.2)

/-- INC and DEC (R326, R327), every form: one more or less modulo 256 in memory; only N and Z change. -/
def Obligations.MemoryCountsUpAndDown : Prop :=
  ∀ (o : IncOp) (s : State),
    (Row (.inc o) (encInc o) ∧ Runs (.inc o) s fun t =>
        ModifyEffect o.operand (fun v => BitVec.ofNat 8 (v.toNat + 1)) [1, 7] s t ∧ t.cycles = some (encInc o).2.2) ∧
      (Row (.dec o) (encDec o) ∧ Runs (.dec o) s fun t =>
        ModifyEffect o.operand (fun v => BitVec.ofNat 8 (v.toNat + 255)) [1, 7] s t ∧ t.cycles = some (encDec o).2.2)

/-- INX, INY, DEX and DEY (R328-R331). -/
def Obligations.IndexRegistersCountUpAndDown : Prop :=
  ∀ s : State,
    let up (v : Byte) : Byte := BitVec.ofNat 8 (v.toNat + 1)
    let down (v : Byte) : Byte := BitVec.ofNat 8 (v.toNat + 255)
    let done (v : Byte) (t : State) : Prop := NZ v t ∧ KeepsFlags [1, 7] s t ∧ NoAccess s t ∧ t.cycles = some 2
    (encode .inx = [0xE8] ∧ Runs .inx s fun t => regs t = (s.a, up s.x, s.y, s.sp, s.pc) ∧ done (up s.x) t) ∧
      (encode .iny = [0xC8] ∧ Runs .iny s fun t => regs t = (s.a, s.x, up s.y, s.sp, s.pc) ∧ done (up s.y) t) ∧
      (encode .dex = [0xCA] ∧ Runs .dex s fun t => regs t = (s.a, down s.x, s.y, s.sp, s.pc) ∧ done (down s.x) t) ∧
      (encode .dey = [0x88] ∧ Runs .dey s fun t => regs t = (s.a, s.x, down s.y, s.sp, s.pc) ∧ done (down s.y) t)

/-! ### The stack -/

/-- PHA and PHP (R383, R384): the byte goes to `STACK_PAGE ++ SP`, then SP decreases modulo 256; PHP pushes P with bits 5
and 4 set (bit 4 is the spec's decision D16) and leaves P alone. -/
def Obligations.PushesStoreThenDecrement : Prop :=
  ∀ s : State,
    let done (v : Byte) (t : State) : Prop :=
      regs t = (s.a, s.x, s.y, s.sp - 1, s.pc) ∧ t.p = s.p ∧ t.bus = s.bus ++ [.write (slot s 0) v] ∧
        Stores s t (slot s 0) v ∧ SameMemoryBut [(slot s 0).toNat] s t ∧ SameRest s t ∧ t.cycles = some 3
    (encode .pha = [0x48] ∧ Runs .pha s (done s.a)) ∧ (encode .php = [0x08] ∧ Runs .php s (done (s.p ||| 0x30)))

/-- PLA and PLP (R385, R386): SP increases modulo 256, then the byte at `STACK_PAGE ++ SP` is read; PLA sets N and Z, PLP
takes all of P with bit 5 at 1 (storing bit 4 is the spec's decision D17). -/
def Obligations.PullsIncrementThenLoad : Prop :=
  ∀ s : State,
    let v := s.answer (slotUp s 1)
    let done (t : State) : Prop :=
      t.bus = s.bus ++ [.read (slotUp s 1) v] ∧ SameMemory s t ∧ SameRest s t ∧ t.cycles = some 4
    (encode .pla = [0x68] ∧ Runs .pla s fun t =>
        regs t = (v, s.x, s.y, s.sp + 1, s.pc) ∧ NZ v t ∧ KeepsFlags [1, 7] s t ∧ done t) ∧
      (encode .plp = [0x28] ∧ Runs .plp s fun t =>
        regs t = (s.a, s.x, s.y, s.sp + 1, s.pc) ∧ t.p = v ||| 0x20 ∧ done t)

/-- `n` PHAs leave SP at SP - n modulo 256; after 256 of them SP is back and every byte of the stack page that the host
does not intercept holds A: the stack wraps silently (R24, R383). -/
def Obligations.StackWrapsSilently : Prop :=
  ∀ (s : State) (n : Nat), ∃ t, execN .pha n s = .next t ∧ t.sp = s.sp - BitVec.ofNat 8 n ∧ t.a = s.a ∧
    (256 ≤ n → ∀ k : Byte, Stores s t (word s.cfg.stackPage k) s.a)

/-! ### Jumps, calls, the trap -/

/-- JMP (R387, R151): absolute to the operand; indirect through the pointer with the same-page defect. -/
def Obligations.JumpsGoToTheTarget : Prop :=
  ∀ (s : State) (a : Addr),
    let done (t : State) : Prop :=
      t.a = s.a ∧ t.x = s.x ∧ t.y = s.y ∧ t.sp = s.sp ∧ t.p = s.p ∧ SameMemory s t ∧ SameRest s t
    (Row (.jmp (.abs a)) (encJmp (.abs a)) ∧ Runs (.jmp (.abs a)) s fun t =>
        t.pc = a ∧ t.bus = s.bus ∧ t.cycles = some 3 ∧ done t) ∧
      (Row (.jmp (.ind a)) (encJmp (.ind a)) ∧ Runs (.jmp (.ind a)) s fun t =>
        let q := BitVec.ofNat 16 (a.toNat / 256 * 256 + (a.toNat + 1) % 256)
        ∃ lo hi, t.pc.toNat = hi.toNat * 256 + lo.toNat ∧ t.bus = s.bus ++ [.read a lo, .read q hi] ∧ Answers s a lo ∧
          Answers s q hi ∧ t.cycles = some 5 ∧ done t)

/-- JSR (R388): pushes the address of its last byte, high byte first, and goes to the operand. That both operand bytes are
read first is the spec's decision D28. -/
def Obligations.JsrPushesItsLastByteAddress : Prop :=
  ∀ (s : State) (a : Addr), (opcodeOf (.jsr a) = 0x20 ∧ (encode (.jsr a)).length = 3) ∧ Runs (.jsr a) s fun t =>
    let ret := s.pc - 1
    regs t = (s.a, s.x, s.y, s.sp - 2, a) ∧ t.p = s.p ∧
      t.bus = s.bus ++ [.write (slot s 0) (hiByte ret), .write (slot s 1) (loByte ret)] ∧
      Stores s t (slot s 0) (hiByte ret) ∧ Stores s t (slot s 1) (loByte ret) ∧
      SameMemoryBut [(slot s 0).toNat, (slot s 1).toNat] s t ∧ SameRest s t ∧ t.cycles = some 6

/-- RTS (R389): pops low then high, and PC is one more modulo 65536. -/
def Obligations.RtsReturnsPastThePoppedAddress : Prop :=
  ∀ s : State, encode .rts = [0x60] ∧ Runs .rts s fun t =>
    ∃ lo hi, regs t = (s.a, s.x, s.y, s.sp + 2, word hi lo + 1) ∧ t.p = s.p ∧
      t.bus = s.bus ++ [.read (slotUp s 1) lo, .read (slotUp s 2) hi] ∧ Answers s (slotUp s 1) lo ∧
      Answers s (slotUp s 2) hi ∧ SameMemory s t ∧ SameRest s t ∧ t.cycles = some 6

/-- RTI (R390, R530): pops P, bit 5 at 1, then PC low and high, with no adjustment; storing bit 4 is the spec's decision
D17. -/
def Obligations.RtiRestoresStatusThenPc : Prop :=
  ∀ s : State, encode .rti = [0x40] ∧ Runs .rti s fun t =>
    ∃ p lo hi, regs t = (s.a, s.x, s.y, s.sp + 3, word hi lo) ∧ t.p = p ||| 0x20 ∧
      t.bus = s.bus ++ [.read (slotUp s 1) p, .read (slotUp s 2) lo, .read (slotUp s 3) hi] ∧
      Answers s (slotUp s 1) p ∧ Answers s (slotUp s 2) lo ∧ Answers s (slotUp s 3) hi ∧ SameMemory s t ∧
      SameRest s t ∧ t.cycles = some 6

/-- BRK takes the trap (R391, R520): it pushes opaddr + 2, which is PC + 1, high byte first, then P with bits 5 and 4 set,
sets I and no other flag, and loads PC from the vector, low byte first. The return address and the vector are the spec's
decisions D5 and D14. -/
def Obligations.BrkTakesTheTrap : Prop :=
  ∀ s : State, encode .brk = [0x00] ∧ Runs .brk s fun t =>
    let ret := s.pc + 1
    let vec := s.cfg.irqVector
    ∃ lo hi, regs t = (s.a, s.x, s.y, s.sp - 3, word hi lo) ∧ t.flagI = true ∧ KeepsFlags [2] s t ∧
      t.bus = s.bus ++ [.write (slot s 0) (hiByte ret), .write (slot s 1) (loByte ret),
        .write (slot s 2) (s.p ||| 0x30), .read vec lo, .read (vec + 1) hi] ∧
      Answers t vec lo ∧ Answers t (vec + 1) hi ∧ Stores s t (slot s 0) (hiByte ret) ∧
      Stores s t (slot s 1) (loByte ret) ∧ Stores s t (slot s 2) (s.p ||| 0x30) ∧
      SameMemoryBut [(slot s 0).toNat, (slot s 1).toNat, (slot s 2).toNat] s t ∧ SameRest s t ∧ t.cycles = some 7

/-- RTS after JSR goes to the instruction after the JSR with SP as before, where the host intercepts neither slot (R388,
R389). -/
def Obligations.RtsUndoesJsr : Prop :=
  ∀ (s : State) (a : Addr), s.intercepted (slot s 0) = false → s.intercepted (slot s 1) = false →
    ∃ t u, exec (.jsr a) s = .next t ∧ exec .rts t = .next u ∧ u.pc = s.pc ∧ u.sp = s.sp ∧ u.p = s.p

/-- RTI after BRK resumes at opaddr + 2 with SP as before and every flag but B as before, I among them; B is 1 (R530;
D14, D17). -/
def Obligations.RtiUndoesBrk : Prop :=
  ∀ s : State, (∀ k : Byte, k.toNat < 3 → s.intercepted (slot s k) = false) →
    ∃ t u, exec .brk s = .next t ∧ exec .rti t = .next u ∧ u.pc = s.pc + 1 ∧ u.sp = s.sp ∧ KeepsFlags [4, 5] s u ∧
      u.flagB = true ∧ u.p.getLsbD 5 = true

/-- The eight branches (R392-R401): taken, PC is the next instruction's address plus the signed displacement and 3 cycles
are reported, 4 into another page; not taken, PC stays and 2 are. Condition table and timing are the spec's decisions D1
and D20. -/
def Obligations.BranchesFollowTheirFlag : Prop :=
  ∀ (d : Byte) (s : State),
    (encode (.bpl d) = [0x10, d] ∧ Runs (.bpl d) s (BranchEffect (s.flagN = false) d s)) ∧
      (encode (.bmi d) = [0x30, d] ∧ Runs (.bmi d) s (BranchEffect (s.flagN = true) d s)) ∧
      (encode (.bvc d) = [0x50, d] ∧ Runs (.bvc d) s (BranchEffect (s.flagV = false) d s)) ∧
      (encode (.bvs d) = [0x70, d] ∧ Runs (.bvs d) s (BranchEffect (s.flagV = true) d s)) ∧
      (encode (.bcc d) = [0x90, d] ∧ Runs (.bcc d) s (BranchEffect (s.flagC = false) d s)) ∧
      (encode (.bcs d) = [0xB0, d] ∧ Runs (.bcs d) s (BranchEffect (s.flagC = true) d s)) ∧
      (encode (.bne d) = [0xD0, d] ∧ Runs (.bne d) s (BranchEffect (s.flagZ = false) d s)) ∧
      (encode (.beq d) = [0xF0, d] ∧ Runs (.beq d) s (BranchEffect (s.flagZ = true) d s))

/-! ### Flags, NOP, undefined opcodes -/

/-- CLC, SEC, CLI, SEI, CLD, SED and CLV write one bit of P (R460-R466); NOP writes nothing (R467). -/
def Obligations.FlagInstructionsWriteOneBit : Prop :=
  ∀ s : State,
    (encode .clc = [0x18] ∧ Runs .clc s (FlagEffect 0 false s)) ∧ (encode .sec = [0x38] ∧ Runs .sec s (FlagEffect 0 true s)) ∧
      (encode .cli = [0x58] ∧ Runs .cli s (FlagEffect 2 false s)) ∧ (encode .sei = [0x78] ∧ Runs .sei s (FlagEffect 2 true s)) ∧
      (encode .cld = [0xD8] ∧ Runs .cld s (FlagEffect 3 false s)) ∧ (encode .sed = [0xF8] ∧ Runs .sed s (FlagEffect 3 true s)) ∧
      (encode .clv = [0xB8] ∧ Runs .clv s (FlagEffect 6 false s)) ∧
      (encode .nop = [0xEA] ∧ Runs .nop s fun t => regs t = regs s ∧ t.p = s.p ∧ NoAccess s t ∧ t.cycles = some 2)

/-- An undefined opcode (R470): one DIAG event with the opcode's address and byte, UNDEF_CYCLES cycles, PC one further, the
opcode fetch the only transaction, nothing else changed. That nothing else changes is the spec's decision D21. -/
def Obligations.UndefinedOpcodeStep : Prop :=
  ∀ (s : State) (op : Byte), op ∈ undefinedOpcodes → s.answer s.pc = op → s.resetDone = true →
    (Runs (.undef op) s fun t => regs t = regs s ∧ t.p = s.p ∧ t.cycles = some s.cfg.undefCycles) ∧
    ∃ t, step s = .next t ∧ regs t = (s.a, s.x, s.y, s.sp, s.pc + 1) ∧ t.p = s.p ∧ t.mem = s.mem ∧ t.cfg = s.cfg ∧
      t.bus = [.read s.pc op] ∧ t.diag = s.diag ++ [.undefinedOpcode s.pc op] ∧ t.cycles = some s.cfg.undefCycles

/-- A run of `n` undefined bytes on the default path takes `n` steps, emits `n` events and moves PC on by `n`; registers,
P and memory stay (R471, which the spec derives from R470). -/
def Obligations.UndefinedBytesAreWalkedThrough : Prop :=
  ∀ (n : Nat) (s : State), s.resetDone = true →
    (∀ k, k < n → s.intercepted (s.pc + BitVec.ofNat 16 k) = false ∧
      s.mem.read (s.pc + BitVec.ofNat 16 k).toNat ∈ undefinedOpcodes) →
    ∃ t : State, core.run n s = .next t ∧ regs t = (s.a, s.x, s.y, s.sp, s.pc + BitVec.ofNat 16 n) ∧ t.p = s.p ∧
      t.mem = s.mem ∧ ∃ l, t.diag = s.diag ++ l ∧ l.length = n

/-! ### Bit 5 of P -/

/-- Bit 5 of P reads as 1 at all times (R26): to an observer and in the bytes PHP and BRK push, whatever is stored; and
PLP, RTI and RESET store it as 1 beside the other bits of the byte they write. -/
def Obligations.UnusedStatusBitIsAlwaysSet : Prop :=
  ∀ s : State,
    (∀ r, observe s = .ok r → r.p.getLsbD 5 = true) ∧ s.pushedP.getLsbD 5 = true ∧
      (Runs .php s fun t => t.bus = s.bus ++ [.write (slot s 0) s.pushedP]) ∧
      (Runs .brk s fun t => BusEvent.write (slot s 2) s.pushedP ∈ t.bus) ∧
      (Runs .plp s fun t => t.p = s.answer (slotUp s 1) ||| 0x20) ∧
      (Runs .rti s fun t => t.p = s.answer (slotUp s 1) ||| 0x20) ∧ (performReset s).p = s.cfg.resetP ||| 0x20
end

