-- ==== Sys2Proof/Laws/Bits.lean ====
section
/-! SUPPORT. Bytes of a word, and one bit of a byte. -/

namespace Sys2Proof

theorem word_toNat (hi lo : Byte) : (word hi lo).toNat = hi.toNat * 256 + lo.toNat := by
  have h1 := hi.isLt
  have h2 := lo.isLt
  rw [word, BitVec.toNat_ofNat]
  omega

theorem loByte_toNat (w : Addr) : (loByte w).toNat = w.toNat % 256 := by
  rw [loByte, BitVec.toNat_ofNat]
  omega

theorem hiByte_toNat (w : Addr) : (hiByte w).toNat = w.toNat / 256 := by
  have h := w.isLt
  rw [hiByte, BitVec.toNat_ofNat]
  omega

@[simp] theorem loByte_word (hi lo : Byte) : loByte (word hi lo) = lo := by
  have h := lo.isLt
  apply BitVec.eq_of_toNat_eq
  rw [loByte_toNat, word_toNat]
  omega

@[simp] theorem hiByte_word (hi lo : Byte) : hiByte (word hi lo) = hi := by
  have h := lo.isLt
  apply BitVec.eq_of_toNat_eq
  rw [hiByte_toNat, word_toNat]
  omega

@[simp] theorem word_hiByte_loByte (w : Addr) : word (hiByte w) (loByte w) = w := by
  apply BitVec.eq_of_toNat_eq
  rw [word_toNat, hiByte_toNat, loByte_toNat]
  omega

@[simp] theorem addrOf_loByte_hiByte (w : Addr) : addrOf (loByte w) (hiByte w) = w := word_hiByte_loByte w

theorem word_inj {hi lo hi' lo' : Byte} : word hi lo = word hi' lo' ↔ hi = hi' ∧ lo = lo' := by
  constructor
  · intro h
    exact ⟨by simpa using congrArg hiByte h, by simpa using congrArg loByte h⟩
  · rintro ⟨rfl, rfl⟩
    rfl

/-- Setting one bit sets that bit and no other. -/
@[simp] theorem getLsbD_setBit (v : Byte) (i : Nat) (b : Bool) (k : Nat) :
    (setBit v i b).getLsbD k = if k = i then decide (k < 8) && b else v.getLsbD k := by
  by_cases hk : k < 8
  · by_cases h : k = i
    · subst h
      cases b <;> simp [setBit, hk]
    · cases b <;> simp [setBit, hk, h]
  · have hz : ∀ w : Byte, w.getLsbD k = false := fun w => BitVec.getLsbD_of_ge w k (by omega)
    simp [hz, hk]

end Sys2Proof
end

