-- ==== Sys2Proof/Laws/Decode.lean ====
section
/-! SUPPORT. What the decoder does, said once: the bytes of the instruction it gives are the opcode byte and the operand
bytes it used, and the instruction is well formed. One lemma for each row of the opcode map, then for all. -/

namespace Sys2Proof

/-- The operand bytes among the two that follow an opcode, when `n` of them are used. -/
def usedBytes (n : Nat) (b1 b2 : Byte) : List Byte :=
  match n with
  | 0 => []
  | 1 => [b1]
  | _ => [b1, b2]

@[simp] theorem loByte_addrOf (lo hi : Byte) : loByte (addrOf lo hi) = lo := loByte_word hi lo
@[simp] theorem hiByte_addrOf (lo hi : Byte) : hiByte (addrOf lo hi) = hi := hiByte_word hi lo

/-- What the decoder gives for an opcode byte and the two bytes after it. -/
def DecodesTo (op b1 b2 : Byte) : Prop :=
  encode (decodeOp op b1 b2) = op :: usedBytes (operandCount op) b1 b2 ∧ (decodeOp op b1 b2).wf = true

theorem decodesTo_abs {op b1 b2 : Byte} {i : Addr → Instr} (h1 : decodeOp op b1 b2 = i (addrOf b1 b2))
    (h2 : ∀ a, encode (i a) = [op, loByte a, hiByte a]) (h3 : operandCount op = 2) (h4 : ∀ a, (i a).wf = true) :
    DecodesTo op b1 b2 := by
  refine ⟨?_, by rw [h1]; exact h4 _⟩
  rw [h1, h2, h3, loByte_addrOf, hiByte_addrOf]
  rfl

theorem decodesTo_row0 (b1 b2 : Byte) {lo : Nat} (h : lo < 16) : DecodesTo (BitVec.ofNat 8 (0 + lo)) b1 b2 := by
  interval_cases lo
  · exact ⟨rfl, rfl⟩
  · exact ⟨rfl, rfl⟩
  · exact ⟨rfl, rfl⟩
  · exact ⟨rfl, rfl⟩
  · exact ⟨rfl, rfl⟩
  · exact ⟨rfl, rfl⟩
  · exact ⟨rfl, rfl⟩
  · exact ⟨rfl, rfl⟩
  · exact ⟨rfl, rfl⟩
  · exact ⟨rfl, rfl⟩
  · exact ⟨rfl, rfl⟩
  · exact ⟨rfl, rfl⟩
  · exact ⟨rfl, rfl⟩
  · exact decodesTo_abs (i := fun a => Instr.ora (.abs a)) rfl (fun _ => rfl) rfl (fun _ => rfl)
  · exact decodesTo_abs (i := fun a => Instr.asl (.abs a)) rfl (fun _ => rfl) rfl (fun _ => rfl)
  · exact ⟨rfl, rfl⟩

theorem decodesTo_row1 (b1 b2 : Byte) {lo : Nat} (h : lo < 16) : DecodesTo (BitVec.ofNat 8 (16 + lo)) b1 b2 := by
  interval_cases lo
  · exact ⟨rfl, rfl⟩
  · exact ⟨rfl, rfl⟩
  · exact ⟨rfl, rfl⟩
  · exact ⟨rfl, rfl⟩
  · exact ⟨rfl, rfl⟩
  · exact ⟨rfl, rfl⟩
  · exact ⟨rfl, rfl⟩
  · exact ⟨rfl, rfl⟩
  · exact ⟨rfl, rfl⟩
  · exact decodesTo_abs (i := fun a => Instr.ora (.aby a)) rfl (fun _ => rfl) rfl (fun _ => rfl)
  · exact ⟨rfl, rfl⟩
  · exact ⟨rfl, rfl⟩
  · exact ⟨rfl, rfl⟩
  · exact decodesTo_abs (i := fun a => Instr.ora (.abx a)) rfl (fun _ => rfl) rfl (fun _ => rfl)
  · exact decodesTo_abs (i := fun a => Instr.asl (.abx a)) rfl (fun _ => rfl) rfl (fun _ => rfl)
  · exact ⟨rfl, rfl⟩

theorem decodesTo_row2 (b1 b2 : Byte) {lo : Nat} (h : lo < 16) : DecodesTo (BitVec.ofNat 8 (32 + lo)) b1 b2 := by
  interval_cases lo
  · exact decodesTo_abs (i := fun a => Instr.jsr a) rfl (fun _ => rfl) rfl (fun _ => rfl)
  · exact ⟨rfl, rfl⟩
  · exact ⟨rfl, rfl⟩
  · exact ⟨rfl, rfl⟩
  · exact ⟨rfl, rfl⟩
  · exact ⟨rfl, rfl⟩
  · exact ⟨rfl, rfl⟩
  · exact ⟨rfl, rfl⟩
  · exact ⟨rfl, rfl⟩
  · exact ⟨rfl, rfl⟩
  · exact ⟨rfl, rfl⟩
  · exact ⟨rfl, rfl⟩
  · exact decodesTo_abs (i := fun a => Instr.bit (.abs a)) rfl (fun _ => rfl) rfl (fun _ => rfl)
  · exact decodesTo_abs (i := fun a => Instr.and (.abs a)) rfl (fun _ => rfl) rfl (fun _ => rfl)
  · exact decodesTo_abs (i := fun a => Instr.rol (.abs a)) rfl (fun _ => rfl) rfl (fun _ => rfl)
  · exact ⟨rfl, rfl⟩

theorem decodesTo_row3 (b1 b2 : Byte) {lo : Nat} (h : lo < 16) : DecodesTo (BitVec.ofNat 8 (48 + lo)) b1 b2 := by
  interval_cases lo
  · exact ⟨rfl, rfl⟩
  · exact ⟨rfl, rfl⟩
  · exact ⟨rfl, rfl⟩
  · exact ⟨rfl, rfl⟩
  · exact ⟨rfl, rfl⟩
  · exact ⟨rfl, rfl⟩
  · exact ⟨rfl, rfl⟩
  · exact ⟨rfl, rfl⟩
  · exact ⟨rfl, rfl⟩
  · exact decodesTo_abs (i := fun a => Instr.and (.aby a)) rfl (fun _ => rfl) rfl (fun _ => rfl)
  · exact ⟨rfl, rfl⟩
  · exact ⟨rfl, rfl⟩
  · exact ⟨rfl, rfl⟩
  · exact decodesTo_abs (i := fun a => Instr.and (.abx a)) rfl (fun _ => rfl) rfl (fun _ => rfl)
  · exact decodesTo_abs (i := fun a => Instr.rol (.abx a)) rfl (fun _ => rfl) rfl (fun _ => rfl)
  · exact ⟨rfl, rfl⟩

theorem decodesTo_row4 (b1 b2 : Byte) {lo : Nat} (h : lo < 16) : DecodesTo (BitVec.ofNat 8 (64 + lo)) b1 b2 := by
  interval_cases lo
  · exact ⟨rfl, rfl⟩
  · exact ⟨rfl, rfl⟩
  · exact ⟨rfl, rfl⟩
  · exact ⟨rfl, rfl⟩
  · exact ⟨rfl, rfl⟩
  · exact ⟨rfl, rfl⟩
  · exact ⟨rfl, rfl⟩
  · exact ⟨rfl, rfl⟩
  · exact ⟨rfl, rfl⟩
  · exact ⟨rfl, rfl⟩
  · exact ⟨rfl, rfl⟩
  · exact ⟨rfl, rfl⟩
  · exact decodesTo_abs (i := fun a => Instr.jmp (.abs a)) rfl (fun _ => rfl) rfl (fun _ => rfl)
  · exact decodesTo_abs (i := fun a => Instr.eor (.abs a)) rfl (fun _ => rfl) rfl (fun _ => rfl)
  · exact decodesTo_abs (i := fun a => Instr.lsr (.abs a)) rfl (fun _ => rfl) rfl (fun _ => rfl)
  · exact ⟨rfl, rfl⟩

theorem decodesTo_row5 (b1 b2 : Byte) {lo : Nat} (h : lo < 16) : DecodesTo (BitVec.ofNat 8 (80 + lo)) b1 b2 := by
  interval_cases lo
  · exact ⟨rfl, rfl⟩
  · exact ⟨rfl, rfl⟩
  · exact ⟨rfl, rfl⟩
  · exact ⟨rfl, rfl⟩
  · exact ⟨rfl, rfl⟩
  · exact ⟨rfl, rfl⟩
  · exact ⟨rfl, rfl⟩
  · exact ⟨rfl, rfl⟩
  · exact ⟨rfl, rfl⟩
  · exact decodesTo_abs (i := fun a => Instr.eor (.aby a)) rfl (fun _ => rfl) rfl (fun _ => rfl)
  · exact ⟨rfl, rfl⟩
  · exact ⟨rfl, rfl⟩
  · exact ⟨rfl, rfl⟩
  · exact decodesTo_abs (i := fun a => Instr.eor (.abx a)) rfl (fun _ => rfl) rfl (fun _ => rfl)
  · exact decodesTo_abs (i := fun a => Instr.lsr (.abx a)) rfl (fun _ => rfl) rfl (fun _ => rfl)
  · exact ⟨rfl, rfl⟩

theorem decodesTo_row6 (b1 b2 : Byte) {lo : Nat} (h : lo < 16) : DecodesTo (BitVec.ofNat 8 (96 + lo)) b1 b2 := by
  interval_cases lo
  · exact ⟨rfl, rfl⟩
  · exact ⟨rfl, rfl⟩
  · exact ⟨rfl, rfl⟩
  · exact ⟨rfl, rfl⟩
  · exact ⟨rfl, rfl⟩
  · exact ⟨rfl, rfl⟩
  · exact ⟨rfl, rfl⟩
  · exact ⟨rfl, rfl⟩
  · exact ⟨rfl, rfl⟩
  · exact ⟨rfl, rfl⟩
  · exact ⟨rfl, rfl⟩
  · exact ⟨rfl, rfl⟩
  · exact decodesTo_abs (i := fun a => Instr.jmp (.ind a)) rfl (fun _ => rfl) rfl (fun _ => rfl)
  · exact decodesTo_abs (i := fun a => Instr.adc (.abs a)) rfl (fun _ => rfl) rfl (fun _ => rfl)
  · exact decodesTo_abs (i := fun a => Instr.ror (.abs a)) rfl (fun _ => rfl) rfl (fun _ => rfl)
  · exact ⟨rfl, rfl⟩

theorem decodesTo_row7 (b1 b2 : Byte) {lo : Nat} (h : lo < 16) : DecodesTo (BitVec.ofNat 8 (112 + lo)) b1 b2 := by
  interval_cases lo
  · exact ⟨rfl, rfl⟩
  · exact ⟨rfl, rfl⟩
  · exact ⟨rfl, rfl⟩
  · exact ⟨rfl, rfl⟩
  · exact ⟨rfl, rfl⟩
  · exact ⟨rfl, rfl⟩
  · exact ⟨rfl, rfl⟩
  · exact ⟨rfl, rfl⟩
  · exact ⟨rfl, rfl⟩
  · exact decodesTo_abs (i := fun a => Instr.adc (.aby a)) rfl (fun _ => rfl) rfl (fun _ => rfl)
  · exact ⟨rfl, rfl⟩
  · exact ⟨rfl, rfl⟩
  · exact ⟨rfl, rfl⟩
  · exact decodesTo_abs (i := fun a => Instr.adc (.abx a)) rfl (fun _ => rfl) rfl (fun _ => rfl)
  · exact decodesTo_abs (i := fun a => Instr.ror (.abx a)) rfl (fun _ => rfl) rfl (fun _ => rfl)
  · exact ⟨rfl, rfl⟩

theorem decodesTo_row8 (b1 b2 : Byte) {lo : Nat} (h : lo < 16) : DecodesTo (BitVec.ofNat 8 (128 + lo)) b1 b2 := by
  interval_cases lo
  · exact ⟨rfl, rfl⟩
  · exact ⟨rfl, rfl⟩
  · exact ⟨rfl, rfl⟩
  · exact ⟨rfl, rfl⟩
  · exact ⟨rfl, rfl⟩
  · exact ⟨rfl, rfl⟩
  · exact ⟨rfl, rfl⟩
  · exact ⟨rfl, rfl⟩
  · exact ⟨rfl, rfl⟩
  · exact ⟨rfl, rfl⟩
  · exact ⟨rfl, rfl⟩
  · exact ⟨rfl, rfl⟩
  · exact decodesTo_abs (i := fun a => Instr.sty (.abs a)) rfl (fun _ => rfl) rfl (fun _ => rfl)
  · exact decodesTo_abs (i := fun a => Instr.sta (.abs a)) rfl (fun _ => rfl) rfl (fun _ => rfl)
  · exact decodesTo_abs (i := fun a => Instr.stx (.abs a)) rfl (fun _ => rfl) rfl (fun _ => rfl)
  · exact ⟨rfl, rfl⟩

theorem decodesTo_row9 (b1 b2 : Byte) {lo : Nat} (h : lo < 16) : DecodesTo (BitVec.ofNat 8 (144 + lo)) b1 b2 := by
  interval_cases lo
  · exact ⟨rfl, rfl⟩
  · exact ⟨rfl, rfl⟩
  · exact ⟨rfl, rfl⟩
  · exact ⟨rfl, rfl⟩
  · exact ⟨rfl, rfl⟩
  · exact ⟨rfl, rfl⟩
  · exact ⟨rfl, rfl⟩
  · exact ⟨rfl, rfl⟩
  · exact ⟨rfl, rfl⟩
  · exact decodesTo_abs (i := fun a => Instr.sta (.aby a)) rfl (fun _ => rfl) rfl (fun _ => rfl)
  · exact ⟨rfl, rfl⟩
  · exact ⟨rfl, rfl⟩
  · exact ⟨rfl, rfl⟩
  · exact decodesTo_abs (i := fun a => Instr.sta (.abx a)) rfl (fun _ => rfl) rfl (fun _ => rfl)
  · exact ⟨rfl, rfl⟩
  · exact ⟨rfl, rfl⟩

theorem decodesTo_rowA (b1 b2 : Byte) {lo : Nat} (h : lo < 16) : DecodesTo (BitVec.ofNat 8 (160 + lo)) b1 b2 := by
  interval_cases lo
  · exact ⟨rfl, rfl⟩
  · exact ⟨rfl, rfl⟩
  · exact ⟨rfl, rfl⟩
  · exact ⟨rfl, rfl⟩
  · exact ⟨rfl, rfl⟩
  · exact ⟨rfl, rfl⟩
  · exact ⟨rfl, rfl⟩
  · exact ⟨rfl, rfl⟩
  · exact ⟨rfl, rfl⟩
  · exact ⟨rfl, rfl⟩
  · exact ⟨rfl, rfl⟩
  · exact ⟨rfl, rfl⟩
  · exact decodesTo_abs (i := fun a => Instr.ldy (.abs a)) rfl (fun _ => rfl) rfl (fun _ => rfl)
  · exact decodesTo_abs (i := fun a => Instr.lda (.abs a)) rfl (fun _ => rfl) rfl (fun _ => rfl)
  · exact decodesTo_abs (i := fun a => Instr.ldx (.abs a)) rfl (fun _ => rfl) rfl (fun _ => rfl)
  · exact ⟨rfl, rfl⟩

theorem decodesTo_rowB (b1 b2 : Byte) {lo : Nat} (h : lo < 16) : DecodesTo (BitVec.ofNat 8 (176 + lo)) b1 b2 := by
  interval_cases lo
  · exact ⟨rfl, rfl⟩
  · exact ⟨rfl, rfl⟩
  · exact ⟨rfl, rfl⟩
  · exact ⟨rfl, rfl⟩
  · exact ⟨rfl, rfl⟩
  · exact ⟨rfl, rfl⟩
  · exact ⟨rfl, rfl⟩
  · exact ⟨rfl, rfl⟩
  · exact ⟨rfl, rfl⟩
  · exact decodesTo_abs (i := fun a => Instr.lda (.aby a)) rfl (fun _ => rfl) rfl (fun _ => rfl)
  · exact ⟨rfl, rfl⟩
  · exact ⟨rfl, rfl⟩
  · exact decodesTo_abs (i := fun a => Instr.ldy (.abx a)) rfl (fun _ => rfl) rfl (fun _ => rfl)
  · exact decodesTo_abs (i := fun a => Instr.lda (.abx a)) rfl (fun _ => rfl) rfl (fun _ => rfl)
  · exact decodesTo_abs (i := fun a => Instr.ldx (.aby a)) rfl (fun _ => rfl) rfl (fun _ => rfl)
  · exact ⟨rfl, rfl⟩

theorem decodesTo_rowC (b1 b2 : Byte) {lo : Nat} (h : lo < 16) : DecodesTo (BitVec.ofNat 8 (192 + lo)) b1 b2 := by
  interval_cases lo
  · exact ⟨rfl, rfl⟩
  · exact ⟨rfl, rfl⟩
  · exact ⟨rfl, rfl⟩
  · exact ⟨rfl, rfl⟩
  · exact ⟨rfl, rfl⟩
  · exact ⟨rfl, rfl⟩
  · exact ⟨rfl, rfl⟩
  · exact ⟨rfl, rfl⟩
  · exact ⟨rfl, rfl⟩
  · exact ⟨rfl, rfl⟩
  · exact ⟨rfl, rfl⟩
  · exact ⟨rfl, rfl⟩
  · exact decodesTo_abs (i := fun a => Instr.cpy (.abs a)) rfl (fun _ => rfl) rfl (fun _ => rfl)
  · exact decodesTo_abs (i := fun a => Instr.cmp (.abs a)) rfl (fun _ => rfl) rfl (fun _ => rfl)
  · exact decodesTo_abs (i := fun a => Instr.dec (.abs a)) rfl (fun _ => rfl) rfl (fun _ => rfl)
  · exact ⟨rfl, rfl⟩

theorem decodesTo_rowD (b1 b2 : Byte) {lo : Nat} (h : lo < 16) : DecodesTo (BitVec.ofNat 8 (208 + lo)) b1 b2 := by
  interval_cases lo
  · exact ⟨rfl, rfl⟩
  · exact ⟨rfl, rfl⟩
  · exact ⟨rfl, rfl⟩
  · exact ⟨rfl, rfl⟩
  · exact ⟨rfl, rfl⟩
  · exact ⟨rfl, rfl⟩
  · exact ⟨rfl, rfl⟩
  · exact ⟨rfl, rfl⟩
  · exact ⟨rfl, rfl⟩
  · exact decodesTo_abs (i := fun a => Instr.cmp (.aby a)) rfl (fun _ => rfl) rfl (fun _ => rfl)
  · exact ⟨rfl, rfl⟩
  · exact ⟨rfl, rfl⟩
  · exact ⟨rfl, rfl⟩
  · exact decodesTo_abs (i := fun a => Instr.cmp (.abx a)) rfl (fun _ => rfl) rfl (fun _ => rfl)
  · exact decodesTo_abs (i := fun a => Instr.dec (.abx a)) rfl (fun _ => rfl) rfl (fun _ => rfl)
  · exact ⟨rfl, rfl⟩

theorem decodesTo_rowE (b1 b2 : Byte) {lo : Nat} (h : lo < 16) : DecodesTo (BitVec.ofNat 8 (224 + lo)) b1 b2 := by
  interval_cases lo
  · exact ⟨rfl, rfl⟩
  · exact ⟨rfl, rfl⟩
  · exact ⟨rfl, rfl⟩
  · exact ⟨rfl, rfl⟩
  · exact ⟨rfl, rfl⟩
  · exact ⟨rfl, rfl⟩
  · exact ⟨rfl, rfl⟩
  · exact ⟨rfl, rfl⟩
  · exact ⟨rfl, rfl⟩
  · exact ⟨rfl, rfl⟩
  · exact ⟨rfl, rfl⟩
  · exact ⟨rfl, rfl⟩
  · exact decodesTo_abs (i := fun a => Instr.cpx (.abs a)) rfl (fun _ => rfl) rfl (fun _ => rfl)
  · exact decodesTo_abs (i := fun a => Instr.sbc (.abs a)) rfl (fun _ => rfl) rfl (fun _ => rfl)
  · exact decodesTo_abs (i := fun a => Instr.inc (.abs a)) rfl (fun _ => rfl) rfl (fun _ => rfl)
  · exact ⟨rfl, rfl⟩

theorem decodesTo_rowF (b1 b2 : Byte) {lo : Nat} (h : lo < 16) : DecodesTo (BitVec.ofNat 8 (240 + lo)) b1 b2 := by
  interval_cases lo
  · exact ⟨rfl, rfl⟩
  · exact ⟨rfl, rfl⟩
  · exact ⟨rfl, rfl⟩
  · exact ⟨rfl, rfl⟩
  · exact ⟨rfl, rfl⟩
  · exact ⟨rfl, rfl⟩
  · exact ⟨rfl, rfl⟩
  · exact ⟨rfl, rfl⟩
  · exact ⟨rfl, rfl⟩
  · exact decodesTo_abs (i := fun a => Instr.sbc (.aby a)) rfl (fun _ => rfl) rfl (fun _ => rfl)
  · exact ⟨rfl, rfl⟩
  · exact ⟨rfl, rfl⟩
  · exact ⟨rfl, rfl⟩
  · exact decodesTo_abs (i := fun a => Instr.sbc (.abx a)) rfl (fun _ => rfl) rfl (fun _ => rfl)
  · exact decodesTo_abs (i := fun a => Instr.inc (.abx a)) rfl (fun _ => rfl) rfl (fun _ => rfl)
  · exact ⟨rfl, rfl⟩

/-- The bytes of the instruction the decoder gives are the opcode and the operand bytes it used (R100, R101, R103). -/
theorem decodesTo (op b1 b2 : Byte) : DecodesTo op b1 b2 := by
  have hlt := op.isLt
  have hop : op = BitVec.ofNat 8 (op.toNat / 16 * 16 + op.toNat % 16) := by
    apply BitVec.eq_of_toNat_eq
    rw [BitVec.toNat_ofNat]
    omega
  have hlo : op.toNat % 16 < 16 := Nat.mod_lt _ (by decide)
  have hhi : op.toNat / 16 < 16 := by omega
  rw [hop]
  generalize op.toNat % 16 = lo at hlo
  generalize op.toNat / 16 = hi at hhi
  interval_cases hi
  · exact decodesTo_row0 b1 b2 hlo
  · exact decodesTo_row1 b1 b2 hlo
  · exact decodesTo_row2 b1 b2 hlo
  · exact decodesTo_row3 b1 b2 hlo
  · exact decodesTo_row4 b1 b2 hlo
  · exact decodesTo_row5 b1 b2 hlo
  · exact decodesTo_row6 b1 b2 hlo
  · exact decodesTo_row7 b1 b2 hlo
  · exact decodesTo_row8 b1 b2 hlo
  · exact decodesTo_row9 b1 b2 hlo
  · exact decodesTo_rowA b1 b2 hlo
  · exact decodesTo_rowB b1 b2 hlo
  · exact decodesTo_rowC b1 b2 hlo
  · exact decodesTo_rowD b1 b2 hlo
  · exact decodesTo_rowE b1 b2 hlo
  · exact decodesTo_rowF b1 b2 hlo

theorem encode_decodeOp (op b1 b2 : Byte) :
    encode (decodeOp op b1 b2) = op :: usedBytes (operandCount op) b1 b2 := (decodesTo op b1 b2).1

theorem wf_decodeOp (op b1 b2 : Byte) : (decodeOp op b1 b2).wf = true := (decodesTo op b1 b2).2

/-- An opcode uses none, one or two operand bytes (R101). -/
theorem operandCount_le (op : Byte) : operandCount op ≤ 2 := by
  unfold operandCount
  cases rowOf op with
  | none => simp
  | some r => cases h : r.mode <;> simp [h, Mode.operandBytes]

end Sys2Proof
end

