-- ==== Sys2Proof/Laws/State.lean ====
section
/-! SUPPORT. Each field after each update. -/

namespace Sys2Proof.Machine.State

@[simp] theorem setA_a (s : State) (v : Byte) : (s.setA v).a = v := rfl
@[simp] theorem setA_x (s : State) (v : Byte) : (s.setA v).x = s.x := rfl
@[simp] theorem setA_y (s : State) (v : Byte) : (s.setA v).y = s.y := rfl
@[simp] theorem setA_sp (s : State) (v : Byte) : (s.setA v).sp = s.sp := rfl
@[simp] theorem setA_pc (s : State) (v : Byte) : (s.setA v).pc = s.pc := rfl
@[simp] theorem setA_p (s : State) (v : Byte) : (s.setA v).p = s.p := rfl
@[simp] theorem setA_mem (s : State) (v : Byte) : (s.setA v).mem = s.mem := rfl
@[simp] theorem setA_cfg (s : State) (v : Byte) : (s.setA v).cfg = s.cfg := rfl
@[simp] theorem setA_draws (s : State) (v : Byte) : (s.setA v).draws = s.draws := rfl
@[simp] theorem setA_bus (s : State) (v : Byte) : (s.setA v).bus = s.bus := rfl
@[simp] theorem setA_diag (s : State) (v : Byte) : (s.setA v).diag = s.diag := rfl
@[simp] theorem setA_cycles (s : State) (v : Byte) : (s.setA v).cycles = s.cycles := rfl
@[simp] theorem setA_resetDone (s : State) (v : Byte) : (s.setA v).resetDone = s.resetDone := rfl

@[simp] theorem setX_a (s : State) (v : Byte) : (s.setX v).a = s.a := rfl
@[simp] theorem setX_x (s : State) (v : Byte) : (s.setX v).x = v := rfl
@[simp] theorem setX_y (s : State) (v : Byte) : (s.setX v).y = s.y := rfl
@[simp] theorem setX_sp (s : State) (v : Byte) : (s.setX v).sp = s.sp := rfl
@[simp] theorem setX_pc (s : State) (v : Byte) : (s.setX v).pc = s.pc := rfl
@[simp] theorem setX_p (s : State) (v : Byte) : (s.setX v).p = s.p := rfl
@[simp] theorem setX_mem (s : State) (v : Byte) : (s.setX v).mem = s.mem := rfl
@[simp] theorem setX_cfg (s : State) (v : Byte) : (s.setX v).cfg = s.cfg := rfl
@[simp] theorem setX_draws (s : State) (v : Byte) : (s.setX v).draws = s.draws := rfl
@[simp] theorem setX_bus (s : State) (v : Byte) : (s.setX v).bus = s.bus := rfl
@[simp] theorem setX_diag (s : State) (v : Byte) : (s.setX v).diag = s.diag := rfl
@[simp] theorem setX_cycles (s : State) (v : Byte) : (s.setX v).cycles = s.cycles := rfl
@[simp] theorem setX_resetDone (s : State) (v : Byte) : (s.setX v).resetDone = s.resetDone := rfl

@[simp] theorem setY_a (s : State) (v : Byte) : (s.setY v).a = s.a := rfl
@[simp] theorem setY_x (s : State) (v : Byte) : (s.setY v).x = s.x := rfl
@[simp] theorem setY_y (s : State) (v : Byte) : (s.setY v).y = v := rfl
@[simp] theorem setY_sp (s : State) (v : Byte) : (s.setY v).sp = s.sp := rfl
@[simp] theorem setY_pc (s : State) (v : Byte) : (s.setY v).pc = s.pc := rfl
@[simp] theorem setY_p (s : State) (v : Byte) : (s.setY v).p = s.p := rfl
@[simp] theorem setY_mem (s : State) (v : Byte) : (s.setY v).mem = s.mem := rfl
@[simp] theorem setY_cfg (s : State) (v : Byte) : (s.setY v).cfg = s.cfg := rfl
@[simp] theorem setY_draws (s : State) (v : Byte) : (s.setY v).draws = s.draws := rfl
@[simp] theorem setY_bus (s : State) (v : Byte) : (s.setY v).bus = s.bus := rfl
@[simp] theorem setY_diag (s : State) (v : Byte) : (s.setY v).diag = s.diag := rfl
@[simp] theorem setY_cycles (s : State) (v : Byte) : (s.setY v).cycles = s.cycles := rfl
@[simp] theorem setY_resetDone (s : State) (v : Byte) : (s.setY v).resetDone = s.resetDone := rfl

@[simp] theorem setSp_a (s : State) (v : Byte) : (s.setSp v).a = s.a := rfl
@[simp] theorem setSp_x (s : State) (v : Byte) : (s.setSp v).x = s.x := rfl
@[simp] theorem setSp_y (s : State) (v : Byte) : (s.setSp v).y = s.y := rfl
@[simp] theorem setSp_sp (s : State) (v : Byte) : (s.setSp v).sp = v := rfl
@[simp] theorem setSp_pc (s : State) (v : Byte) : (s.setSp v).pc = s.pc := rfl
@[simp] theorem setSp_p (s : State) (v : Byte) : (s.setSp v).p = s.p := rfl
@[simp] theorem setSp_mem (s : State) (v : Byte) : (s.setSp v).mem = s.mem := rfl
@[simp] theorem setSp_cfg (s : State) (v : Byte) : (s.setSp v).cfg = s.cfg := rfl
@[simp] theorem setSp_draws (s : State) (v : Byte) : (s.setSp v).draws = s.draws := rfl
@[simp] theorem setSp_bus (s : State) (v : Byte) : (s.setSp v).bus = s.bus := rfl
@[simp] theorem setSp_diag (s : State) (v : Byte) : (s.setSp v).diag = s.diag := rfl
@[simp] theorem setSp_cycles (s : State) (v : Byte) : (s.setSp v).cycles = s.cycles := rfl
@[simp] theorem setSp_resetDone (s : State) (v : Byte) : (s.setSp v).resetDone = s.resetDone := rfl

@[simp] theorem setPc_a (s : State) (v : Addr) : (s.setPc v).a = s.a := rfl
@[simp] theorem setPc_x (s : State) (v : Addr) : (s.setPc v).x = s.x := rfl
@[simp] theorem setPc_y (s : State) (v : Addr) : (s.setPc v).y = s.y := rfl
@[simp] theorem setPc_sp (s : State) (v : Addr) : (s.setPc v).sp = s.sp := rfl
@[simp] theorem setPc_pc (s : State) (v : Addr) : (s.setPc v).pc = v := rfl
@[simp] theorem setPc_p (s : State) (v : Addr) : (s.setPc v).p = s.p := rfl
@[simp] theorem setPc_mem (s : State) (v : Addr) : (s.setPc v).mem = s.mem := rfl
@[simp] theorem setPc_cfg (s : State) (v : Addr) : (s.setPc v).cfg = s.cfg := rfl
@[simp] theorem setPc_draws (s : State) (v : Addr) : (s.setPc v).draws = s.draws := rfl
@[simp] theorem setPc_bus (s : State) (v : Addr) : (s.setPc v).bus = s.bus := rfl
@[simp] theorem setPc_diag (s : State) (v : Addr) : (s.setPc v).diag = s.diag := rfl
@[simp] theorem setPc_cycles (s : State) (v : Addr) : (s.setPc v).cycles = s.cycles := rfl
@[simp] theorem setPc_resetDone (s : State) (v : Addr) : (s.setPc v).resetDone = s.resetDone := rfl

@[simp] theorem setP_a (s : State) (v : Byte) : (s.setP v).a = s.a := rfl
@[simp] theorem setP_x (s : State) (v : Byte) : (s.setP v).x = s.x := rfl
@[simp] theorem setP_y (s : State) (v : Byte) : (s.setP v).y = s.y := rfl
@[simp] theorem setP_sp (s : State) (v : Byte) : (s.setP v).sp = s.sp := rfl
@[simp] theorem setP_pc (s : State) (v : Byte) : (s.setP v).pc = s.pc := rfl
@[simp] theorem setP_p (s : State) (v : Byte) : (s.setP v).p = v := rfl
@[simp] theorem setP_mem (s : State) (v : Byte) : (s.setP v).mem = s.mem := rfl
@[simp] theorem setP_cfg (s : State) (v : Byte) : (s.setP v).cfg = s.cfg := rfl
@[simp] theorem setP_draws (s : State) (v : Byte) : (s.setP v).draws = s.draws := rfl
@[simp] theorem setP_bus (s : State) (v : Byte) : (s.setP v).bus = s.bus := rfl
@[simp] theorem setP_diag (s : State) (v : Byte) : (s.setP v).diag = s.diag := rfl
@[simp] theorem setP_cycles (s : State) (v : Byte) : (s.setP v).cycles = s.cycles := rfl
@[simp] theorem setP_resetDone (s : State) (v : Byte) : (s.setP v).resetDone = s.resetDone := rfl

@[simp] theorem setMem_a (s : State) (v : Memory) : (s.setMem v).a = s.a := rfl
@[simp] theorem setMem_x (s : State) (v : Memory) : (s.setMem v).x = s.x := rfl
@[simp] theorem setMem_y (s : State) (v : Memory) : (s.setMem v).y = s.y := rfl
@[simp] theorem setMem_sp (s : State) (v : Memory) : (s.setMem v).sp = s.sp := rfl
@[simp] theorem setMem_pc (s : State) (v : Memory) : (s.setMem v).pc = s.pc := rfl
@[simp] theorem setMem_p (s : State) (v : Memory) : (s.setMem v).p = s.p := rfl
@[simp] theorem setMem_mem (s : State) (v : Memory) : (s.setMem v).mem = v := rfl
@[simp] theorem setMem_cfg (s : State) (v : Memory) : (s.setMem v).cfg = s.cfg := rfl
@[simp] theorem setMem_draws (s : State) (v : Memory) : (s.setMem v).draws = s.draws := rfl
@[simp] theorem setMem_bus (s : State) (v : Memory) : (s.setMem v).bus = s.bus := rfl
@[simp] theorem setMem_diag (s : State) (v : Memory) : (s.setMem v).diag = s.diag := rfl
@[simp] theorem setMem_cycles (s : State) (v : Memory) : (s.setMem v).cycles = s.cycles := rfl
@[simp] theorem setMem_resetDone (s : State) (v : Memory) : (s.setMem v).resetDone = s.resetDone := rfl

@[simp] theorem setDraws_a (s : State) (v : Nat) : (s.setDraws v).a = s.a := rfl
@[simp] theorem setDraws_x (s : State) (v : Nat) : (s.setDraws v).x = s.x := rfl
@[simp] theorem setDraws_y (s : State) (v : Nat) : (s.setDraws v).y = s.y := rfl
@[simp] theorem setDraws_sp (s : State) (v : Nat) : (s.setDraws v).sp = s.sp := rfl
@[simp] theorem setDraws_pc (s : State) (v : Nat) : (s.setDraws v).pc = s.pc := rfl
@[simp] theorem setDraws_p (s : State) (v : Nat) : (s.setDraws v).p = s.p := rfl
@[simp] theorem setDraws_mem (s : State) (v : Nat) : (s.setDraws v).mem = s.mem := rfl
@[simp] theorem setDraws_cfg (s : State) (v : Nat) : (s.setDraws v).cfg = s.cfg := rfl
@[simp] theorem setDraws_draws (s : State) (v : Nat) : (s.setDraws v).draws = v := rfl
@[simp] theorem setDraws_bus (s : State) (v : Nat) : (s.setDraws v).bus = s.bus := rfl
@[simp] theorem setDraws_diag (s : State) (v : Nat) : (s.setDraws v).diag = s.diag := rfl
@[simp] theorem setDraws_cycles (s : State) (v : Nat) : (s.setDraws v).cycles = s.cycles := rfl
@[simp] theorem setDraws_resetDone (s : State) (v : Nat) : (s.setDraws v).resetDone = s.resetDone := rfl

@[simp] theorem setBus_a (s : State) (v : List BusEvent) : (s.setBus v).a = s.a := rfl
@[simp] theorem setBus_x (s : State) (v : List BusEvent) : (s.setBus v).x = s.x := rfl
@[simp] theorem setBus_y (s : State) (v : List BusEvent) : (s.setBus v).y = s.y := rfl
@[simp] theorem setBus_sp (s : State) (v : List BusEvent) : (s.setBus v).sp = s.sp := rfl
@[simp] theorem setBus_pc (s : State) (v : List BusEvent) : (s.setBus v).pc = s.pc := rfl
@[simp] theorem setBus_p (s : State) (v : List BusEvent) : (s.setBus v).p = s.p := rfl
@[simp] theorem setBus_mem (s : State) (v : List BusEvent) : (s.setBus v).mem = s.mem := rfl
@[simp] theorem setBus_cfg (s : State) (v : List BusEvent) : (s.setBus v).cfg = s.cfg := rfl
@[simp] theorem setBus_draws (s : State) (v : List BusEvent) : (s.setBus v).draws = s.draws := rfl
@[simp] theorem setBus_bus (s : State) (v : List BusEvent) : (s.setBus v).bus = v := rfl
@[simp] theorem setBus_diag (s : State) (v : List BusEvent) : (s.setBus v).diag = s.diag := rfl
@[simp] theorem setBus_cycles (s : State) (v : List BusEvent) : (s.setBus v).cycles = s.cycles := rfl
@[simp] theorem setBus_resetDone (s : State) (v : List BusEvent) : (s.setBus v).resetDone = s.resetDone := rfl

@[simp] theorem setDiag_a (s : State) (v : List DiagEvent) : (s.setDiag v).a = s.a := rfl
@[simp] theorem setDiag_x (s : State) (v : List DiagEvent) : (s.setDiag v).x = s.x := rfl
@[simp] theorem setDiag_y (s : State) (v : List DiagEvent) : (s.setDiag v).y = s.y := rfl
@[simp] theorem setDiag_sp (s : State) (v : List DiagEvent) : (s.setDiag v).sp = s.sp := rfl
@[simp] theorem setDiag_pc (s : State) (v : List DiagEvent) : (s.setDiag v).pc = s.pc := rfl
@[simp] theorem setDiag_p (s : State) (v : List DiagEvent) : (s.setDiag v).p = s.p := rfl
@[simp] theorem setDiag_mem (s : State) (v : List DiagEvent) : (s.setDiag v).mem = s.mem := rfl
@[simp] theorem setDiag_cfg (s : State) (v : List DiagEvent) : (s.setDiag v).cfg = s.cfg := rfl
@[simp] theorem setDiag_draws (s : State) (v : List DiagEvent) : (s.setDiag v).draws = s.draws := rfl
@[simp] theorem setDiag_bus (s : State) (v : List DiagEvent) : (s.setDiag v).bus = s.bus := rfl
@[simp] theorem setDiag_diag (s : State) (v : List DiagEvent) : (s.setDiag v).diag = v := rfl
@[simp] theorem setDiag_cycles (s : State) (v : List DiagEvent) : (s.setDiag v).cycles = s.cycles := rfl
@[simp] theorem setDiag_resetDone (s : State) (v : List DiagEvent) : (s.setDiag v).resetDone = s.resetDone := rfl

@[simp] theorem setCycles_a (s : State) (v : Option Nat) : (s.setCycles v).a = s.a := rfl
@[simp] theorem setCycles_x (s : State) (v : Option Nat) : (s.setCycles v).x = s.x := rfl
@[simp] theorem setCycles_y (s : State) (v : Option Nat) : (s.setCycles v).y = s.y := rfl
@[simp] theorem setCycles_sp (s : State) (v : Option Nat) : (s.setCycles v).sp = s.sp := rfl
@[simp] theorem setCycles_pc (s : State) (v : Option Nat) : (s.setCycles v).pc = s.pc := rfl
@[simp] theorem setCycles_p (s : State) (v : Option Nat) : (s.setCycles v).p = s.p := rfl
@[simp] theorem setCycles_mem (s : State) (v : Option Nat) : (s.setCycles v).mem = s.mem := rfl
@[simp] theorem setCycles_cfg (s : State) (v : Option Nat) : (s.setCycles v).cfg = s.cfg := rfl
@[simp] theorem setCycles_draws (s : State) (v : Option Nat) : (s.setCycles v).draws = s.draws := rfl
@[simp] theorem setCycles_bus (s : State) (v : Option Nat) : (s.setCycles v).bus = s.bus := rfl
@[simp] theorem setCycles_diag (s : State) (v : Option Nat) : (s.setCycles v).diag = s.diag := rfl
@[simp] theorem setCycles_cycles (s : State) (v : Option Nat) : (s.setCycles v).cycles = v := rfl
@[simp] theorem setCycles_resetDone (s : State) (v : Option Nat) : (s.setCycles v).resetDone = s.resetDone := rfl

/-- Two writes of P: the second stands. -/
@[simp] theorem setP_setP (s : State) (u v : Byte) : (s.setP u).setP v = s.setP v := rfl

end Sys2Proof.Machine.State
end

