-- ==== Sys2Proof/Laws/Flags.lean ====
section
/-! SUPPORT. Every write of flags is one write of P, so that a field other than P passes through it, and each bit of P can
be read off. -/

namespace Sys2Proof.Machine.State

variable (s : State) (b : Bool) (v : Byte)

@[simp] theorem setC_eq : s.setC b = s.setP (setBit s.p 0 b) := rfl
@[simp] theorem setZ_eq : s.setZ b = s.setP (setBit s.p 1 b) := rfl
@[simp] theorem setI_eq : s.setI b = s.setP (setBit s.p 2 b) := rfl
@[simp] theorem setD_eq : s.setD b = s.setP (setBit s.p 3 b) := rfl
@[simp] theorem setV_eq : s.setV b = s.setP (setBit s.p 6 b) := rfl
@[simp] theorem setN_eq : s.setN b = s.setP (setBit s.p 7 b) := rfl
@[simp] theorem writeP_eq : s.writeP v = s.setP (v ||| 0x20) := rfl

@[simp] theorem setNZ_eq : s.setNZ v = s.setP (setBit (setBit s.p 1 (v == 0)) 7 (v.getLsbD 7)) := rfl

@[simp] theorem setSumFlags_eq (sum : Sum) :
    s.setSumFlags sum =
      s.setP (setBit (setBit (setBit (setBit s.p 0 sum.c) 6 sum.v) 1 (sum.r == 0)) 7 (sum.r.getLsbD 7)) := rfl

@[simp] theorem compare_eq (reg m : Byte) :
    s.compare reg m =
      s.setP (setBit (setBit (setBit s.p 0 (subC reg m true).c) 1 ((subC reg m true).r == 0)) 7
        ((subC reg m true).r.getLsbD 7)) := rfl

@[simp] theorem setShiftFlags_eq (sh : Shifted) :
    s.setShiftFlags sh = s.setP (setBit (setBit (setBit s.p 0 sh.cout) 1 (sh.r == 0)) 7 (sh.r.getLsbD 7)) := rfl

/-- Bit 5 of P reads as 1 (R26). -/
theorem readP_bit5 : s.readP.getLsbD 5 = true := by
  simp [readP]

/-- A read of P shows every other bit as stored. -/
theorem readP_getLsbD {k : Nat} (h : k ≠ 5) : s.readP.getLsbD k = s.p.getLsbD k := by
  by_cases hk : k < 8
  · have : (0x20 : Byte).getLsbD k = false := by
      interval_cases k <;> first | rfl | exact absurd rfl h
    rw [readP, BitVec.getLsbD_or, this, Bool.or_false]
  · rw [BitVec.getLsbD_of_ge _ k (by omega), BitVec.getLsbD_of_ge _ k (by omega)]

end Sys2Proof.Machine.State

namespace Sys2Proof.Machine

/-- The adder's result as a number: the 9-bit sum modulo 256 (R263). -/
theorem addC_r_toNat (a b : Byte) (cin : Bool) :
    (addC a b cin).r.toNat = (a.toNat + b.toNat + bitNat cin) % 256 := by
  simp [addC]

theorem addC_c (a b : Byte) (cin : Bool) :
    (addC a b cin).c = decide (a.toNat + b.toNat + bitNat cin > 255) := rfl

theorem bitNat_le (b : Bool) : bitNat b ≤ 1 := by cases b <;> decide

/-- The one's complement as a number. -/
theorem toNat_not (m : Byte) : (~~~m).toNat = 255 - m.toNat := by
  simp [BitVec.toNat_not]

end Sys2Proof.Machine
end

