-- ==== Sys2Proof/Laws/Memory.lean ====
section
/-! SUPPORT. Read after write, and that every write keeps the canonical form. -/

namespace Sys2Proof.Machine

theorem Memory.read_erase (m : Memory) (k j : Nat) : (m.erase k).read j = if j = k then unlisted else m.read j := by
  induction m with
  | nil => simp [erase, read]
  | cons c rest ih =>
    obtain ⟨key, v⟩ := c
    by_cases hk : key = k
    · have : Memory.erase ((key, v) :: rest) k = Memory.erase rest k := by simp [erase, hk]
      rw [this, ih]
      by_cases hj : j = k
      · simp [hj]
      · have : ¬ key = j := by omega
        simp [read, hj, this]
    · have : Memory.erase ((key, v) :: rest) k = (key, v) :: Memory.erase rest k := by simp [erase, hk]
      rw [this]
      simp only [read, ih]
      by_cases hj : key = j
      · have : ¬ j = k := by omega
        simp [hj, this]
      · simp [hj]

theorem Memory.read_insert (m : Memory) (k : Nat) (v : Byte) (j : Nat) :
    (m.insert k v).read j = if j = k then v else m.read j := by
  induction m with
  | nil => simp [insert, read, eq_comm]
  | cons c rest ih =>
    obtain ⟨key, w⟩ := c
    by_cases h1 : k < key
    · by_cases h : j = k
      · simp [insert, read, h1, h]
      · have : ¬ k = j := by omega
        simp [insert, read, h1, h, this]
    · by_cases h2 : key = k
      · by_cases h : j = k
        · simp [insert, read, h2, h]
        · have : ¬ k = j := by omega
          simp [insert, read, h2, h, this]
      · simp only [insert, h1, h2, if_false, read, ih]
        by_cases hj : key = j
        · have : ¬ j = k := by omega
          simp [hj, this]
        · simp [hj]

/-- What a write leaves: the written byte at its address, and every other byte as it was. -/
theorem Memory.read_write (m : Memory) (k : Nat) (v : Byte) (j : Nat) :
    (m.write k v).read j = if j = k then v else m.read j := by
  unfold write
  split
  · rename_i h
    rw [read_erase, h]
  · exact read_insert m k v j

@[simp] theorem Memory.read_write_same (m : Memory) (k : Nat) (v : Byte) : (m.write k v).read k = v := by
  simp [read_write]

theorem Memory.read_write_other (m : Memory) {k j : Nat} (v : Byte) (h : j ≠ k) : (m.write k v).read j = m.read j := by
  simp [read_write, h]

theorem Memory.mem_insert {m : Memory} {k : Nat} {v : Byte} {c : Host.Cell} (h : c ∈ m.insert k v) : c = (k, v) ∨ c ∈ m := by
  induction m with
  | nil => simpa [insert] using h
  | cons d rest ih =>
    obtain ⟨key, w⟩ := d
    unfold insert at h
    split at h
    · simpa using h
    · split at h
      · rcases List.mem_cons.mp h with h | h
        · exact .inl h
        · exact .inr (List.mem_cons_of_mem _ h)
      · rcases List.mem_cons.mp h with h | h
        · exact .inr (by simp [h])
        · rcases ih h with h | h
          · exact .inl h
          · exact .inr (List.mem_cons_of_mem _ h)

theorem Memory.insert_rising {m : Memory} (hm : m.Pairwise fun c d => c.1 < d.1) (k : Nat) (v : Byte) :
    (m.insert k v).Pairwise fun c d => c.1 < d.1 := by
  induction m with
  | nil => simp [insert]
  | cons d rest ih =>
    obtain ⟨key, w⟩ := d
    obtain ⟨hd, hr⟩ := List.pairwise_cons.mp hm
    unfold insert
    split
    · rename_i h
      refine List.pairwise_cons.mpr ⟨fun c hc => ?_, hm⟩
      rcases List.mem_cons.mp hc with rfl | hc
      · exact h
      · exact Nat.lt_trans h (hd c hc)
    · split
      · rename_i h
        exact List.pairwise_cons.mpr ⟨fun c hc => h ▸ hd c hc, hr⟩
      · rename_i h1 h2
        refine List.pairwise_cons.mpr ⟨fun c hc => ?_, ih hr⟩
        rcases mem_insert hc with rfl | hc
        · exact Nat.lt_of_le_of_ne (Nat.le_of_not_lt h1) h2
        · exact hd c hc

/-- Every write inside the address space keeps the canonical form. -/
theorem Memory.write_wf {m : Memory} (hm : m.wf) {k : Nat} (hk : k < 65536) (v : Byte) : (m.write k v).wf := by
  obtain ⟨hr, hc⟩ := hm
  unfold write
  split
  · refine ⟨List.Pairwise.sublist List.filter_sublist hr, fun c h => hc c (List.mem_filter.mp h).1⟩
  · rename_i hv
    refine ⟨insert_rising hr k v, fun c h => ?_⟩
    rcases mem_insert h with rfl | h
    · exact ⟨hk, hv⟩
    · exact hc c h

theorem Memory.write_addr_wf {m : Memory} (hm : m.wf) (a : BitVec 16) (v : Byte) : (m.write a.toNat v).wf :=
  write_wf hm a.isLt v

end Sys2Proof.Machine
end

