-- ==== Sys2Proof/Laws/Ops.lean ====
section
/-! SUPPORT. What each shared operation can do, said once. -/

namespace Sys2Proof.Machine

/-- `t` is `s` but for the BUS port and the count of host answers: all that reading does. -/
structure ReadsOnly (s t : State) : Prop where
  a : t.a = s.a
  x : t.x = s.x
  y : t.y = s.y
  sp : t.sp = s.sp
  pc : t.pc = s.pc
  p : t.p = s.p
  mem : t.mem = s.mem
  cfg : t.cfg = s.cfg
  diag : t.diag = s.diag
  cycles : t.cycles = s.cycles
  resetDone : t.resetDone = s.resetDone

theorem ReadsOnly.refl (s : State) : ReadsOnly s s :=
  ⟨rfl, rfl, rfl, rfl, rfl, rfl, rfl, rfl, rfl, rfl, rfl⟩

theorem ReadsOnly.trans {s t u : State} (h : ReadsOnly s t) (k : ReadsOnly t u) : ReadsOnly s u where
  a := k.a.trans h.a
  x := k.x.trans h.x
  y := k.y.trans h.y
  sp := k.sp.trans h.sp
  pc := k.pc.trans h.pc
  p := k.p.trans h.p
  mem := k.mem.trans h.mem
  cfg := k.cfg.trans h.cfg
  diag := k.diag.trans h.diag
  cycles := k.cycles.trans h.cycles
  resetDone := k.resetDone.trans h.resetDone

/-! ### The bus -/

theorem busRead_readsOnly (s : State) (a : Addr) : ReadsOnly s (busRead s a).st :=
  ⟨rfl, rfl, rfl, rfl, rfl, rfl, rfl, rfl, rfl, rfl, rfl⟩

@[simp] theorem busRead_value (s : State) (a : Addr) : (busRead s a).value = s.answer a := rfl

@[simp] theorem busRead_bus (s : State) (a : Addr) : (busRead s a).st.bus = s.bus ++ [.read a (s.answer a)] := rfl

@[simp] theorem busRead_draws (s : State) (a : Addr) : (busRead s a).st.draws = s.drawsAfter a := rfl

/-- A read of an address off IO_ADDRS answers memory (R63). -/
theorem answer_default {s : State} {a : Addr} (h : s.intercepted a = false) : s.answer a = s.mem.read a.toNat := by
  simp [State.answer, h]

/-- A write touches memory at its own address only (R63, R64). -/
theorem busWrite_read_other (s : State) (a : Addr) (v : Byte) {k : Nat} (h : k ≠ a.toNat) :
    (busWrite s a v).mem.read k = s.mem.read k := by
  simp [busWrite, State.logBus, Memory.read_write_other _ _ h]

/-- On the default path a write stores its byte (R63). -/
theorem busWrite_read_same {s : State} {a : Addr} (h : s.intercepted a = false) (v : Byte) :
    (busWrite s a v).mem.read a.toNat = v := by
  simp [busWrite, h]

theorem busWrite_wf {s : State} (h : s.mem.wf) (a : Addr) (v : Byte) : (busWrite s a v).mem.wf := by
  simp only [busWrite, State.setDraws_mem, State.setMem_mem]
  exact Memory.write_addr_wf h _ _

theorem busWrite_bus (s : State) (a : Addr) (v : Byte) : (busWrite s a v).bus = s.bus ++ [.write a v] := rfl

/-- `t` is `s` but for the BUS port, the count of host answers, and memory at the addresses `at_`: all that writing does. -/
structure WritesOnly (at_ : List Nat) (s t : State) : Prop where
  a : t.a = s.a
  x : t.x = s.x
  y : t.y = s.y
  pc : t.pc = s.pc
  p : t.p = s.p
  mem : ∀ k, k ∉ at_ → t.mem.read k = s.mem.read k
  wf : s.mem.wf → t.mem.wf
  cfg : t.cfg = s.cfg
  diag : t.diag = s.diag
  cycles : t.cycles = s.cycles
  resetDone : t.resetDone = s.resetDone

theorem busWrite_writesOnly (s : State) (a : Addr) (v : Byte) : WritesOnly [a.toNat] s (busWrite s a v) where
  a := rfl
  x := rfl
  y := rfl
  pc := rfl
  p := rfl
  mem k hk := busWrite_read_other s a v (by simpa using hk)
  wf h := busWrite_wf h a v
  cfg := rfl
  diag := rfl
  cycles := rfl
  resetDone := rfl

@[simp] theorem busWrite_sp (s : State) (a : Addr) (v : Byte) : (busWrite s a v).sp = s.sp := rfl

/-- Neither reading nor writing changes which addresses are intercepted: that is a matter of `cfg`. -/
theorem intercepted_congr {s t : State} (h : t.cfg = s.cfg) (a : Addr) : t.intercepted a = s.intercepted a := by
  simp [State.intercepted, h]

theorem WritesOnly.trans {l m : List Nat} {s t u : State} (h : WritesOnly l s t) (k : WritesOnly m t u) :
    WritesOnly (l ++ m) s u where
  a := k.a.trans h.a
  x := k.x.trans h.x
  y := k.y.trans h.y
  pc := k.pc.trans h.pc
  p := k.p.trans h.p
  mem j hj := by
    simp only [List.mem_append, not_or] at hj
    exact (k.mem j hj.2).trans (h.mem j hj.1)
  wf hw := k.wf (h.wf hw)
  cfg := k.cfg.trans h.cfg
  diag := k.diag.trans h.diag
  cycles := k.cycles.trans h.cycles
  resetDone := k.resetDone.trans h.resetDone

theorem ReadsOnly.writesOnly {s t : State} (h : ReadsOnly s t) : WritesOnly [] s t where
  a := h.a
  x := h.x
  y := h.y
  pc := h.pc
  p := h.p
  mem k _ := by rw [h.mem]
  wf hw := by rw [h.mem]; exact hw
  cfg := h.cfg
  diag := h.diag
  cycles := h.cycles
  resetDone := h.resetDone

/-! ### Two-byte reads, fetch, stack -/

theorem read16_readsOnly (s : State) (a : Addr) : ReadsOnly s (read16 s a).st :=
  (busRead_readsOnly s a).trans (busRead_readsOnly _ (a + 1))

@[simp] theorem fetch8_value (s : State) : (fetch8 s).value = s.answer s.pc := rfl
@[simp] theorem fetch8_pc (s : State) : (fetch8 s).st.pc = s.pc + 1 := rfl
@[simp] theorem fetch8_bus (s : State) : (fetch8 s).st.bus = s.bus ++ [.read s.pc (s.answer s.pc)] := rfl
@[simp] theorem fetch8_mem (s : State) : (fetch8 s).st.mem = s.mem := rfl
@[simp] theorem fetch8_cfg (s : State) : (fetch8 s).st.cfg = s.cfg := rfl
@[simp] theorem fetch8_p (s : State) : (fetch8 s).st.p = s.p := rfl
@[simp] theorem fetch8_resetDone (s : State) : (fetch8 s).st.resetDone = s.resetDone := rfl

@[simp] theorem push_sp (s : State) (v : Byte) : (push s v).sp = s.sp - 1 := rfl

theorem push_writesOnly (s : State) (v : Byte) : WritesOnly [s.stackAddr.toNat] s (push s v) where
  a := rfl
  x := rfl
  y := rfl
  pc := rfl
  p := rfl
  mem k hk := busWrite_read_other s _ v (by simpa using hk)
  wf h := busWrite_wf h _ v
  cfg := rfl
  diag := rfl
  cycles := rfl
  resetDone := rfl

theorem push16_writesOnly (s : State) (w : Addr) :
    WritesOnly [s.stackAddr.toNat, (push s (hiByte w)).stackAddr.toNat] s (push16 s w) :=
  (push_writesOnly s (hiByte w)).trans (push_writesOnly _ (loByte w))

@[simp] theorem push16_sp (s : State) (w : Addr) : (push16 s w).sp = s.sp - 1 - 1 := rfl

/-- The stack address is a matter of SP and the parameters alone (R24). -/
theorem stackAddr_congr {s t : State} (hc : t.cfg = s.cfg) (hs : t.sp = s.sp) : t.stackAddr = s.stackAddr := by
  simp [State.stackAddr, hc, hs]

@[simp] theorem pop_value (s : State) : (pop s).value = (s.setSp (s.sp + 1)).answer (s.setSp (s.sp + 1)).stackAddr := rfl
@[simp] theorem pop_sp (s : State) : (pop s).st.sp = s.sp + 1 := rfl

theorem pop_readsOnly (s : State) : ReadsOnly (s.setSp (s.sp + 1)) (pop s).st := busRead_readsOnly _ _

/-! ### Several bytes on the stack -/

theorem sub_one_sub_one (v : Byte) : v - 1 - 1 = v - 2 := by
  rw [BitVec.sub_sub]
  rfl

theorem add_one_add_one (v : Byte) : v + 1 + 1 = v + 2 := by
  rw [BitVec.add_assoc]
  rfl

/-- Different stack pointers are different stack addresses (R24). -/
theorem stackAddr_ne (page : Byte) {p q : Byte} (h : p ≠ q) : (word page p).toNat ≠ (word page q).toNat := by
  intro e
  rw [word_toNat, word_toNat] at e
  exact h (BitVec.eq_of_toNat_eq (by omega))

/-- The push of a byte: one transaction, which stores where SP points. -/
theorem push_bus (s : State) (v : Byte) : (push s v).bus = s.bus ++ [.write s.stackAddr v] := rfl

theorem push_stores {s : State} (h : s.intercepted s.stackAddr = false) (v : Byte) :
    (push s v).mem.read s.stackAddr.toNat = v := by
  rw [push, State.setSp_mem]
  exact busWrite_read_same h v

theorem stackAddr_push (s : State) (v : Byte) : (push s v).stackAddr = word s.cfg.stackPage (s.sp - 1) := rfl

/-- What `Push16` does (R382): two transactions, the high byte first, at the two slots below SP; on the default path the
bytes are in memory afterwards. -/
theorem push16_bus (s : State) (w : Addr) :
    (push16 s w).bus =
      s.bus ++ [.write s.stackAddr (hiByte w), .write (word s.cfg.stackPage (s.sp - 1)) (loByte w)] := by
  rw [push16, push_bus, push_bus, stackAddr_push, List.append_assoc]
  rfl

theorem push16_stores_hi {s : State} (h : s.intercepted s.stackAddr = false) (w : Addr) :
    (push16 s w).mem.read s.stackAddr.toNat = hiByte w := by
  have hne : s.sp ≠ s.sp - 1 := fun e => by
    have := congrArg BitVec.toNat e
    have hlt := s.sp.isLt
    have h1 : (1 : Byte).toNat = 1 := rfl
    rw [BitVec.toNat_sub, h1] at this
    omega
  rw [push16, (push_writesOnly _ _).mem]
  · exact push_stores h _
  · rw [stackAddr_push]
    exact fun hm => stackAddr_ne s.cfg.stackPage hne (List.mem_singleton.mp hm)

theorem push16_stores_lo {s : State} (h : s.intercepted (word s.cfg.stackPage (s.sp - 1)) = false) (w : Addr) :
    (push16 s w).mem.read (word s.cfg.stackPage (s.sp - 1)).toNat = loByte w := by
  have h' : (push s (hiByte w)).intercepted (push s (hiByte w)).stackAddr = false := by
    rw [stackAddr_push, intercepted_congr (push_writesOnly s _).cfg]
    exact h
  have := push_stores h' (loByte w)
  rw [stackAddr_push] at this
  exact this

/-- What `Pop` does (R381): one read where the incremented SP points. -/
theorem pop_bus (s : State) :
    (pop s).st.bus = s.bus ++ [.read (word s.cfg.stackPage (s.sp + 1)) (pop s).value] := rfl

theorem pop_default {s : State} (h : s.intercepted (word s.cfg.stackPage (s.sp + 1)) = false) :
    (pop s).value = s.mem.read (word s.cfg.stackPage (s.sp + 1)).toNat :=
  answer_default (s := s.setSp (s.sp + 1)) h

theorem pop16_readsOnly (s : State) : ReadsOnly (s.setSp (s.sp + 2)) (pop16 s).st :=
  ⟨rfl, rfl, rfl, add_one_add_one _, rfl, rfl, rfl, rfl, rfl, rfl, rfl⟩

/-- What `Pop16` does (R382): the low byte and then the high byte from the two slots above SP. -/
theorem pop16_spec (s : State) :
    ∃ lo hi, (pop16 s).value = word hi lo ∧
      (pop16 s).st.bus =
        s.bus ++ [.read (word s.cfg.stackPage (s.sp + 1)) lo, .read (word s.cfg.stackPage (s.sp + 2)) hi] ∧
      (s.intercepted (word s.cfg.stackPage (s.sp + 1)) = false →
        lo = s.mem.read (word s.cfg.stackPage (s.sp + 1)).toNat) ∧
      (s.intercepted (word s.cfg.stackPage (s.sp + 2)) = false →
        hi = s.mem.read (word s.cfg.stackPage (s.sp + 2)).toNat) := by
  have hb := pop_bus (pop s).st
  have hd := fun h => pop_default (s := (pop s).st) h
  have he : (pop s).st.sp + 1 = s.sp + 2 := add_one_add_one s.sp
  rw [he] at hb hd
  refine ⟨(pop s).value, (pop (pop s).st).value, rfl, ?_, fun h => pop_default h, hd⟩
  show (pop (pop s).st).st.bus = _
  rw [hb, pop_bus, List.append_assoc]
  rfl

/-- What `Read16` does (R12): the low byte and then the high byte at the next address. -/
theorem read16_spec (s : State) (a : Addr) :
    ∃ lo hi, (read16 s a).value = word hi lo ∧
      (read16 s a).st.bus = s.bus ++ [.read a lo, .read (a + 1) hi] ∧
      (s.intercepted a = false → lo = s.mem.read a.toNat) ∧
      (s.intercepted (a + 1) = false → hi = s.mem.read (a + 1).toNat) := by
  refine ⟨s.answer a, (busRead s a).st.answer (a + 1), rfl, ?_, fun h => answer_default h,
    fun h => answer_default (s := (busRead s a).st) h⟩
  show (busRead (busRead s a).st (a + 1)).st.bus = _
  rw [busRead_bus, busRead_bus, List.append_assoc]
  rfl

/-! ### Trap entry and return -/

theorem pushedP_eq (s : State) : s.pushedP = s.p ||| 0x30 := by
  simp [State.pushedP, State.readP, BitVec.or_assoc]

/-- What taking the trap leaves alone (R391): A, X, Y, the parameters, DIAG, and memory but for the three slots. -/
theorem enterTrap_frame (s : State) (ret vector : Addr) :
    let t := enterTrap s ret vector
    let s1 := push16 s ret
    t.a = s.a ∧ t.x = s.x ∧ t.y = s.y ∧ t.sp = s.sp - 2 - 1 ∧ t.p = setBit s.p 2 true ∧ t.cfg = s.cfg ∧
      t.diag = s.diag ∧ t.resetDone = s.resetDone ∧ (s.mem.wf → t.mem.wf) ∧
      t.mem = (push s1 s1.pushedP).mem := by
  intro t s1
  have hw : WritesOnly _ s s1 := push16_writesOnly s ret
  have hp := push_writesOnly s1 s1.pushedP
  have hsp : s1.sp = s.sp - 2 := sub_one_sub_one s.sp
  have hsp2 := push_sp s1 s1.pushedP
  have ht : t = (read16 ((push s1 s1.pushedP).setI true) vector).st.setPc
      (read16 ((push s1 s1.pushedP).setI true) vector).value := rfl
  clear_value t s1
  generalize push s1 s1.pushedP = u at *
  have hr := read16_readsOnly (u.setI true) vector
  generalize read16 (u.setI true) vector = g at *
  subst ht
  refine ⟨hr.a.trans (hp.a.trans hw.a), hr.x.trans (hp.x.trans hw.x), hr.y.trans (hp.y.trans hw.y), ?_, ?_,
    hr.cfg.trans (hp.cfg.trans hw.cfg), hr.diag.trans (hp.diag.trans hw.diag),
    hr.resetDone.trans (hp.resetDone.trans hw.resetDone), fun h => ?_, hr.mem⟩
  · exact hr.sp.trans (hsp2.trans (by rw [hsp]))
  · have := hr.p
    rw [State.setI_eq, State.setP_p, hp.p, hw.p] at this
    exact this
  · have hm : g.st.mem = u.mem := hr.mem
    rw [State.setPc_mem, hm]
    exact hp.wf (hw.wf h)

/-- What returning from the trap leaves alone (R390): all but P, PC, SP and the BUS port. -/
theorem returnFromTrap_frame (s : State) :
    let t := returnFromTrap s
    t.a = s.a ∧ t.x = s.x ∧ t.y = s.y ∧ t.p = (pop s).value ||| 0x20 ∧ t.mem = s.mem ∧ t.cfg = s.cfg ∧
      t.diag = s.diag ∧ t.resetDone = s.resetDone := by
  intro t
  have hp := pop_readsOnly s
  have hr := pop16_readsOnly ((pop s).st.writeP (pop s).value)
  have ht : t = (pop16 ((pop s).st.writeP (pop s).value)).st.setPc
      (pop16 ((pop s).st.writeP (pop s).value)).value := rfl
  clear_value t
  generalize pop16 ((pop s).st.writeP (pop s).value) = g at *
  subst ht
  exact ⟨hr.a.trans hp.a, hr.x.trans hp.x, hr.y.trans hp.y, hr.p, hr.mem.trans hp.mem, hr.cfg.trans hp.cfg,
    hr.diag.trans hp.diag, hr.resetDone.trans hp.resetDone⟩

end Sys2Proof.Machine
end

