-- ==== Sys2Proof/Laws/Operands.lean ====
section
/-! SUPPORT. What the resolver and the operand accesses can do, said once. -/

namespace Sys2Proof.Machine

theorem readZpPointer_readsOnly (s : State) (p : Byte) : ReadsOnly s (readZpPointer s p).st :=
  (busRead_readsOnly s _).trans (busRead_readsOnly _ _)

theorem readPagePointer_readsOnly (s : State) (a : Addr) : ReadsOnly s (readPagePointer s a).st :=
  (busRead_readsOnly s _).trans (busRead_readsOnly _ _)

/-- The resolver only reads (R140, R159). -/
theorem resolve_readsOnly (o : Operand) (penalty : Bool) (s : State) : ReadsOnly s (resolve o penalty s).st := by
  cases o with
  | ind a => exact readPagePointer_readsOnly s a
  | izx z => exact readZpPointer_readsOnly s _
  | izy z => exact readZpPointer_readsOnly s _
  | _ => exact ReadsOnly.refl s

/-- The extra cycle is 0 or 1 (R140). -/
theorem pageExtra_le (penalty : Bool) (base ea : Addr) : pageExtra penalty base ea ≤ 1 := by
  unfold pageExtra
  split <;> omega

/-- Without the penalty there is no extra cycle (R156). -/
@[simp] theorem resolve_extra_false (o : Operand) (s : State) : (resolve o false s).extra = 0 := by
  cases o <;> simp [resolve, indexed, pageExtra]

theorem readOperand_readsOnly (o : Operand) (s : State) : ReadsOnly s (readOperand o s).st := by
  cases o with
  | imm v => exact ReadsOnly.refl s
  | ind a => exact (resolve_readsOnly (.ind a) true s).trans (busRead_readsOnly _ _)
  | izx z => exact (resolve_readsOnly (.izx z) true s).trans (busRead_readsOnly _ _)
  | izy z => exact (resolve_readsOnly (.izy z) true s).trans (busRead_readsOnly _ _)
  | _ => exact busRead_readsOnly _ _

/-- The extra cycle of a reading instruction is the resolver's. -/
@[simp] theorem readOperand_extra (o : Operand) (s : State) : (readOperand o s).extra = (resolve o true s).extra := by
  cases o <;> rfl

theorem storeOperand_writesOnly (o : Operand) (v : Byte) (s : State) :
    WritesOnly [(resolve o false s).ea.toNat] s (storeOperand o v s) :=
  (resolve_readsOnly o false s).writesOnly.trans (busWrite_writesOnly _ _ v)

@[simp] theorem storeOperand_sp (o : Operand) (v : Byte) (s : State) : (storeOperand o v s).sp = s.sp :=
  (resolve_readsOnly o false s).sp

theorem modifyOperand_writesOnly (o : Operand) (f : Byte → Byte) (s : State) :
    WritesOnly [(resolve o false s).ea.toNat] s (modifyOperand o f s).st :=
  let r := resolve o false s
  let m := busRead r.st r.ea
  ((resolve_readsOnly o false s).trans (busRead_readsOnly r.st r.ea)).writesOnly.trans
    (busWrite_writesOnly m.st r.ea (f m.value))

@[simp] theorem modifyOperand_sp (o : Operand) (f : Byte → Byte) (s : State) : (modifyOperand o f s).st.sp = s.sp :=
  let r := resolve o false s
  let m := busRead r.st r.ea
  ((busWrite_sp m.st r.ea (f m.value)).trans (busRead_readsOnly r.st r.ea).sp).trans (resolve_readsOnly o false s).sp

/-- The byte a read-modify-write works on is what a read of the effective address answers (R320). -/
@[simp] theorem modifyOperand_value (o : Operand) (f : Byte → Byte) (s : State) :
    (modifyOperand o f s).value = (resolve o false s).st.answer (resolve o false s).ea := rfl

end Sys2Proof.Machine
end

