-- ==== Sys2Proof/Laws/PerInstr.lean ====
section
/-! SUPPORT. Facts that hold of every instruction as syntax, one lemma for each constructor. -/

namespace Sys2Proof.Laws.EncodedLength

/-- An instruction's bytes are as many as its mode says (R101), one, two or three (R100), and the first is its opcode. -/
def Statement (i : Instr) : Prop :=
  (encode i).length = 1 + i.mode.operandBytes ∧ (encode i).length ≤ 3 ∧ (encode i).head? = some (opcodeOf i)

theorem lda (o : ReadOp) : Statement (.lda o) := by
  cases o <;> simp [Statement, encode, Instr.operand, Instr.mode, ReadOp.operand, Operand.bytes, Operand.mode, Mode.operandBytes]

theorem ldx (o : LdxOp) : Statement (.ldx o) := by
  cases o <;> simp [Statement, encode, Instr.operand, Instr.mode, LdxOp.operand, Operand.bytes, Operand.mode, Mode.operandBytes]

theorem ldy (o : LdyOp) : Statement (.ldy o) := by
  cases o <;> simp [Statement, encode, Instr.operand, Instr.mode, LdyOp.operand, Operand.bytes, Operand.mode, Mode.operandBytes]

theorem sta (o : StaOp) : Statement (.sta o) := by
  cases o <;> simp [Statement, encode, Instr.operand, Instr.mode, StaOp.operand, Operand.bytes, Operand.mode, Mode.operandBytes]

theorem stx (o : StxOp) : Statement (.stx o) := by
  cases o <;> simp [Statement, encode, Instr.operand, Instr.mode, StxOp.operand, Operand.bytes, Operand.mode, Mode.operandBytes]

theorem sty (o : StyOp) : Statement (.sty o) := by
  cases o <;> simp [Statement, encode, Instr.operand, Instr.mode, StyOp.operand, Operand.bytes, Operand.mode, Mode.operandBytes]

theorem tax : Statement .tax := ⟨rfl, by decide, rfl⟩

theorem tay : Statement .tay := ⟨rfl, by decide, rfl⟩

theorem txa : Statement .txa := ⟨rfl, by decide, rfl⟩

theorem tya : Statement .tya := ⟨rfl, by decide, rfl⟩

theorem tsx : Statement .tsx := ⟨rfl, by decide, rfl⟩

theorem txs : Statement .txs := ⟨rfl, by decide, rfl⟩

theorem adc (o : ReadOp) : Statement (.adc o) := by
  cases o <;> simp [Statement, encode, Instr.operand, Instr.mode, ReadOp.operand, Operand.bytes, Operand.mode, Mode.operandBytes]

theorem sbc (o : ReadOp) : Statement (.sbc o) := by
  cases o <;> simp [Statement, encode, Instr.operand, Instr.mode, ReadOp.operand, Operand.bytes, Operand.mode, Mode.operandBytes]

theorem cmp (o : ReadOp) : Statement (.cmp o) := by
  cases o <;> simp [Statement, encode, Instr.operand, Instr.mode, ReadOp.operand, Operand.bytes, Operand.mode, Mode.operandBytes]

theorem cpx (o : CpxOp) : Statement (.cpx o) := by
  cases o <;> simp [Statement, encode, Instr.operand, Instr.mode, CpxOp.operand, Operand.bytes, Operand.mode, Mode.operandBytes]

theorem cpy (o : CpxOp) : Statement (.cpy o) := by
  cases o <;> simp [Statement, encode, Instr.operand, Instr.mode, CpxOp.operand, Operand.bytes, Operand.mode, Mode.operandBytes]

theorem and (o : ReadOp) : Statement (.and o) := by
  cases o <;> simp [Statement, encode, Instr.operand, Instr.mode, ReadOp.operand, Operand.bytes, Operand.mode, Mode.operandBytes]

theorem ora (o : ReadOp) : Statement (.ora o) := by
  cases o <;> simp [Statement, encode, Instr.operand, Instr.mode, ReadOp.operand, Operand.bytes, Operand.mode, Mode.operandBytes]

theorem eor (o : ReadOp) : Statement (.eor o) := by
  cases o <;> simp [Statement, encode, Instr.operand, Instr.mode, ReadOp.operand, Operand.bytes, Operand.mode, Mode.operandBytes]

theorem bit (o : BitOp) : Statement (.bit o) := by
  cases o <;> simp [Statement, encode, Instr.operand, Instr.mode, BitOp.operand, Operand.bytes, Operand.mode, Mode.operandBytes]

theorem asl (o : ShiftOp) : Statement (.asl o) := by
  cases o <;> simp [Statement, encode, Instr.operand, Instr.mode, ShiftOp.operand, Operand.bytes, Operand.mode, Mode.operandBytes]

theorem lsr (o : ShiftOp) : Statement (.lsr o) := by
  cases o <;> simp [Statement, encode, Instr.operand, Instr.mode, ShiftOp.operand, Operand.bytes, Operand.mode, Mode.operandBytes]

theorem rol (o : ShiftOp) : Statement (.rol o) := by
  cases o <;> simp [Statement, encode, Instr.operand, Instr.mode, ShiftOp.operand, Operand.bytes, Operand.mode, Mode.operandBytes]

theorem ror (o : ShiftOp) : Statement (.ror o) := by
  cases o <;> simp [Statement, encode, Instr.operand, Instr.mode, ShiftOp.operand, Operand.bytes, Operand.mode, Mode.operandBytes]

theorem inc (o : IncOp) : Statement (.inc o) := by
  cases o <;> simp [Statement, encode, Instr.operand, Instr.mode, IncOp.operand, Operand.bytes, Operand.mode, Mode.operandBytes]

theorem dec (o : IncOp) : Statement (.dec o) := by
  cases o <;> simp [Statement, encode, Instr.operand, Instr.mode, IncOp.operand, Operand.bytes, Operand.mode, Mode.operandBytes]

theorem inx : Statement .inx := ⟨rfl, by decide, rfl⟩

theorem iny : Statement .iny := ⟨rfl, by decide, rfl⟩

theorem dex : Statement .dex := ⟨rfl, by decide, rfl⟩

theorem dey : Statement .dey := ⟨rfl, by decide, rfl⟩

theorem pha : Statement .pha := ⟨rfl, by decide, rfl⟩

theorem php : Statement .php := ⟨rfl, by decide, rfl⟩

theorem pla : Statement .pla := ⟨rfl, by decide, rfl⟩

theorem plp : Statement .plp := ⟨rfl, by decide, rfl⟩

theorem jmp (o : JmpOp) : Statement (.jmp o) := by
  cases o <;> simp [Statement, encode, Instr.operand, Instr.mode, JmpOp.operand, Operand.bytes, Operand.mode, Mode.operandBytes]

theorem jsr (a : Addr) : Statement (.jsr a) := ⟨rfl, (by decide : 3 ≤ 3), rfl⟩

theorem rts : Statement .rts := ⟨rfl, by decide, rfl⟩

theorem rti : Statement .rti := ⟨rfl, by decide, rfl⟩

theorem brk : Statement .brk := ⟨rfl, by decide, rfl⟩

theorem bpl (d : Byte) : Statement (.bpl d) := ⟨rfl, (by decide : 2 ≤ 3), rfl⟩

theorem bmi (d : Byte) : Statement (.bmi d) := ⟨rfl, (by decide : 2 ≤ 3), rfl⟩

theorem bvc (d : Byte) : Statement (.bvc d) := ⟨rfl, (by decide : 2 ≤ 3), rfl⟩

theorem bvs (d : Byte) : Statement (.bvs d) := ⟨rfl, (by decide : 2 ≤ 3), rfl⟩

theorem bcc (d : Byte) : Statement (.bcc d) := ⟨rfl, (by decide : 2 ≤ 3), rfl⟩

theorem bcs (d : Byte) : Statement (.bcs d) := ⟨rfl, (by decide : 2 ≤ 3), rfl⟩

theorem bne (d : Byte) : Statement (.bne d) := ⟨rfl, (by decide : 2 ≤ 3), rfl⟩

theorem beq (d : Byte) : Statement (.beq d) := ⟨rfl, (by decide : 2 ≤ 3), rfl⟩

theorem clc : Statement .clc := ⟨rfl, by decide, rfl⟩

theorem sec : Statement .sec := ⟨rfl, by decide, rfl⟩

theorem cli : Statement .cli := ⟨rfl, by decide, rfl⟩

theorem sei : Statement .sei := ⟨rfl, by decide, rfl⟩

theorem cld : Statement .cld := ⟨rfl, by decide, rfl⟩

theorem sed : Statement .sed := ⟨rfl, by decide, rfl⟩

theorem clv : Statement .clv := ⟨rfl, by decide, rfl⟩

theorem nop : Statement .nop := ⟨rfl, by decide, rfl⟩

theorem undef (op : Byte) : Statement (.undef op) := ⟨rfl, (by decide : 1 ≤ 3), rfl⟩

end Sys2Proof.Laws.EncodedLength
end

