-- ==== Sys2Proof/Tests/Slice0.lean ====
section
/-! SUPPORT. Tests. The expected results are the spec's: opcode bytes from R122 and the Encoding lines of the instruction
rules, single steps from the vectors of spec/95_test_vectors.md (named at each test). Then, for each obligation with
hypotheses, concrete data that meet them. -/

namespace Sys2Proof.Tests

open Sys2Proof.Machine Sys2Proof.Claims

/-! ### Well-formedness: the one check of WellFormed.lean refuses an ill-formed term -/

theorem test_wf_refuses_undef_of_defined : (Instr.undef 0xA9).wf = false := by decide
theorem test_wf_accepts_undef_of_undefined : (Instr.undef 0x02).wf = true := by decide
theorem test_wf_counts : undefinedOpcodes.length = 105 ∧ opcodeRows.length = 151 := ⟨rfl, rfl⟩

/-! ### Decoding: every form of every instruction, its opcode byte written out in bits, operands 0x34 and 0x12 -/

theorem test_decode_lda :
    decode [0b10101001, 0x34] = .ok (.lda (.imm 0x34), []) ∧
      decode [0b10100101, 0x34] = .ok (.lda (.zp 0x34), []) ∧
      decode [0b10110101, 0x34] = .ok (.lda (.zpx 0x34), []) ∧
      decode [0b10101101, 0x34, 0x12] = .ok (.lda (.abs 0x1234), []) ∧
      decode [0b10111101, 0x34, 0x12] = .ok (.lda (.abx 0x1234), []) ∧
      decode [0b10111001, 0x34, 0x12] = .ok (.lda (.aby 0x1234), []) ∧
      decode [0b10100001, 0x34] = .ok (.lda (.izx 0x34), []) ∧
      decode [0b10110001, 0x34] = .ok (.lda (.izy 0x34), []) := by
  decide

theorem test_decode_ldx :
    decode [0b10100010, 0x34] = .ok (.ldx (.imm 0x34), []) ∧
      decode [0b10100110, 0x34] = .ok (.ldx (.zp 0x34), []) ∧
      decode [0b10110110, 0x34] = .ok (.ldx (.zpy 0x34), []) ∧
      decode [0b10101110, 0x34, 0x12] = .ok (.ldx (.abs 0x1234), []) ∧
      decode [0b10111110, 0x34, 0x12] = .ok (.ldx (.aby 0x1234), []) := by
  decide

theorem test_decode_ldy :
    decode [0b10100000, 0x34] = .ok (.ldy (.imm 0x34), []) ∧
      decode [0b10100100, 0x34] = .ok (.ldy (.zp 0x34), []) ∧
      decode [0b10110100, 0x34] = .ok (.ldy (.zpx 0x34), []) ∧
      decode [0b10101100, 0x34, 0x12] = .ok (.ldy (.abs 0x1234), []) ∧
      decode [0b10111100, 0x34, 0x12] = .ok (.ldy (.abx 0x1234), []) := by
  decide

theorem test_decode_sta :
    decode [0b10000101, 0x34] = .ok (.sta (.zp 0x34), []) ∧
      decode [0b10010101, 0x34] = .ok (.sta (.zpx 0x34), []) ∧
      decode [0b10001101, 0x34, 0x12] = .ok (.sta (.abs 0x1234), []) ∧
      decode [0b10011101, 0x34, 0x12] = .ok (.sta (.abx 0x1234), []) ∧
      decode [0b10011001, 0x34, 0x12] = .ok (.sta (.aby 0x1234), []) ∧
      decode [0b10000001, 0x34] = .ok (.sta (.izx 0x34), []) ∧
      decode [0b10010001, 0x34] = .ok (.sta (.izy 0x34), []) := by
  decide

theorem test_decode_stx :
    decode [0b10000110, 0x34] = .ok (.stx (.zp 0x34), []) ∧
      decode [0b10010110, 0x34] = .ok (.stx (.zpy 0x34), []) ∧
      decode [0b10001110, 0x34, 0x12] = .ok (.stx (.abs 0x1234), []) := by
  decide

theorem test_decode_sty :
    decode [0b10000100, 0x34] = .ok (.sty (.zp 0x34), []) ∧
      decode [0b10010100, 0x34] = .ok (.sty (.zpx 0x34), []) ∧
      decode [0b10001100, 0x34, 0x12] = .ok (.sty (.abs 0x1234), []) := by
  decide

theorem test_decode_tax :
    decode [0b10101010] = .ok (.tax, []) := by
  decide

theorem test_decode_tay :
    decode [0b10101000] = .ok (.tay, []) := by
  decide

theorem test_decode_txa :
    decode [0b10001010] = .ok (.txa, []) := by
  decide

theorem test_decode_tya :
    decode [0b10011000] = .ok (.tya, []) := by
  decide

theorem test_decode_tsx :
    decode [0b10111010] = .ok (.tsx, []) := by
  decide

theorem test_decode_txs :
    decode [0b10011010] = .ok (.txs, []) := by
  decide

theorem test_decode_adc :
    decode [0b01101001, 0x34] = .ok (.adc (.imm 0x34), []) ∧
      decode [0b01100101, 0x34] = .ok (.adc (.zp 0x34), []) ∧
      decode [0b01110101, 0x34] = .ok (.adc (.zpx 0x34), []) ∧
      decode [0b01101101, 0x34, 0x12] = .ok (.adc (.abs 0x1234), []) ∧
      decode [0b01111101, 0x34, 0x12] = .ok (.adc (.abx 0x1234), []) ∧
      decode [0b01111001, 0x34, 0x12] = .ok (.adc (.aby 0x1234), []) ∧
      decode [0b01100001, 0x34] = .ok (.adc (.izx 0x34), []) ∧
      decode [0b01110001, 0x34] = .ok (.adc (.izy 0x34), []) := by
  decide

theorem test_decode_sbc :
    decode [0b11101001, 0x34] = .ok (.sbc (.imm 0x34), []) ∧
      decode [0b11100101, 0x34] = .ok (.sbc (.zp 0x34), []) ∧
      decode [0b11110101, 0x34] = .ok (.sbc (.zpx 0x34), []) ∧
      decode [0b11101101, 0x34, 0x12] = .ok (.sbc (.abs 0x1234), []) ∧
      decode [0b11111101, 0x34, 0x12] = .ok (.sbc (.abx 0x1234), []) ∧
      decode [0b11111001, 0x34, 0x12] = .ok (.sbc (.aby 0x1234), []) ∧
      decode [0b11100001, 0x34] = .ok (.sbc (.izx 0x34), []) ∧
      decode [0b11110001, 0x34] = .ok (.sbc (.izy 0x34), []) := by
  decide

theorem test_decode_cmp :
    decode [0b11001001, 0x34] = .ok (.cmp (.imm 0x34), []) ∧
      decode [0b11000101, 0x34] = .ok (.cmp (.zp 0x34), []) ∧
      decode [0b11010101, 0x34] = .ok (.cmp (.zpx 0x34), []) ∧
      decode [0b11001101, 0x34, 0x12] = .ok (.cmp (.abs 0x1234), []) ∧
      decode [0b11011101, 0x34, 0x12] = .ok (.cmp (.abx 0x1234), []) ∧
      decode [0b11011001, 0x34, 0x12] = .ok (.cmp (.aby 0x1234), []) ∧
      decode [0b11000001, 0x34] = .ok (.cmp (.izx 0x34), []) ∧
      decode [0b11010001, 0x34] = .ok (.cmp (.izy 0x34), []) := by
  decide

theorem test_decode_cpx :
    decode [0b11100000, 0x34] = .ok (.cpx (.imm 0x34), []) ∧
      decode [0b11100100, 0x34] = .ok (.cpx (.zp 0x34), []) ∧
      decode [0b11101100, 0x34, 0x12] = .ok (.cpx (.abs 0x1234), []) := by
  decide

theorem test_decode_cpy :
    decode [0b11000000, 0x34] = .ok (.cpy (.imm 0x34), []) ∧
      decode [0b11000100, 0x34] = .ok (.cpy (.zp 0x34), []) ∧
      decode [0b11001100, 0x34, 0x12] = .ok (.cpy (.abs 0x1234), []) := by
  decide

theorem test_decode_and :
    decode [0b00101001, 0x34] = .ok (.and (.imm 0x34), []) ∧
      decode [0b00100101, 0x34] = .ok (.and (.zp 0x34), []) ∧
      decode [0b00110101, 0x34] = .ok (.and (.zpx 0x34), []) ∧
      decode [0b00101101, 0x34, 0x12] = .ok (.and (.abs 0x1234), []) ∧
      decode [0b00111101, 0x34, 0x12] = .ok (.and (.abx 0x1234), []) ∧
      decode [0b00111001, 0x34, 0x12] = .ok (.and (.aby 0x1234), []) ∧
      decode [0b00100001, 0x34] = .ok (.and (.izx 0x34), []) ∧
      decode [0b00110001, 0x34] = .ok (.and (.izy 0x34), []) := by
  decide

theorem test_decode_ora :
    decode [0b00001001, 0x34] = .ok (.ora (.imm 0x34), []) ∧
      decode [0b00000101, 0x34] = .ok (.ora (.zp 0x34), []) ∧
      decode [0b00010101, 0x34] = .ok (.ora (.zpx 0x34), []) ∧
      decode [0b00001101, 0x34, 0x12] = .ok (.ora (.abs 0x1234), []) ∧
      decode [0b00011101, 0x34, 0x12] = .ok (.ora (.abx 0x1234), []) ∧
      decode [0b00011001, 0x34, 0x12] = .ok (.ora (.aby 0x1234), []) ∧
      decode [0b00000001, 0x34] = .ok (.ora (.izx 0x34), []) ∧
      decode [0b00010001, 0x34] = .ok (.ora (.izy 0x34), []) := by
  decide

theorem test_decode_eor :
    decode [0b01001001, 0x34] = .ok (.eor (.imm 0x34), []) ∧
      decode [0b01000101, 0x34] = .ok (.eor (.zp 0x34), []) ∧
      decode [0b01010101, 0x34] = .ok (.eor (.zpx 0x34), []) ∧
      decode [0b01001101, 0x34, 0x12] = .ok (.eor (.abs 0x1234), []) ∧
      decode [0b01011101, 0x34, 0x12] = .ok (.eor (.abx 0x1234), []) ∧
      decode [0b01011001, 0x34, 0x12] = .ok (.eor (.aby 0x1234), []) ∧
      decode [0b01000001, 0x34] = .ok (.eor (.izx 0x34), []) ∧
      decode [0b01010001, 0x34] = .ok (.eor (.izy 0x34), []) := by
  decide

theorem test_decode_bit :
    decode [0b00100100, 0x34] = .ok (.bit (.zp 0x34), []) ∧
      decode [0b00101100, 0x34, 0x12] = .ok (.bit (.abs 0x1234), []) := by
  decide

theorem test_decode_asl :
    decode [0b00000110, 0x34] = .ok (.asl (.zp 0x34), []) ∧
      decode [0b00010110, 0x34] = .ok (.asl (.zpx 0x34), []) ∧
      decode [0b00001110, 0x34, 0x12] = .ok (.asl (.abs 0x1234), []) ∧
      decode [0b00011110, 0x34, 0x12] = .ok (.asl (.abx 0x1234), []) ∧
      decode [0b00001010] = .ok (.asl .acc, []) := by
  decide

theorem test_decode_lsr :
    decode [0b01000110, 0x34] = .ok (.lsr (.zp 0x34), []) ∧
      decode [0b01010110, 0x34] = .ok (.lsr (.zpx 0x34), []) ∧
      decode [0b01001110, 0x34, 0x12] = .ok (.lsr (.abs 0x1234), []) ∧
      decode [0b01011110, 0x34, 0x12] = .ok (.lsr (.abx 0x1234), []) ∧
      decode [0b01001010] = .ok (.lsr .acc, []) := by
  decide

theorem test_decode_rol :
    decode [0b00100110, 0x34] = .ok (.rol (.zp 0x34), []) ∧
      decode [0b00110110, 0x34] = .ok (.rol (.zpx 0x34), []) ∧
      decode [0b00101110, 0x34, 0x12] = .ok (.rol (.abs 0x1234), []) ∧
      decode [0b00111110, 0x34, 0x12] = .ok (.rol (.abx 0x1234), []) ∧
      decode [0b00101010] = .ok (.rol .acc, []) := by
  decide

theorem test_decode_ror :
    decode [0b01100110, 0x34] = .ok (.ror (.zp 0x34), []) ∧
      decode [0b01110110, 0x34] = .ok (.ror (.zpx 0x34), []) ∧
      decode [0b01101110, 0x34, 0x12] = .ok (.ror (.abs 0x1234), []) ∧
      decode [0b01111110, 0x34, 0x12] = .ok (.ror (.abx 0x1234), []) ∧
      decode [0b01101010] = .ok (.ror .acc, []) := by
  decide

theorem test_decode_inc :
    decode [0b11100110, 0x34] = .ok (.inc (.zp 0x34), []) ∧
      decode [0b11110110, 0x34] = .ok (.inc (.zpx 0x34), []) ∧
      decode [0b11101110, 0x34, 0x12] = .ok (.inc (.abs 0x1234), []) ∧
      decode [0b11111110, 0x34, 0x12] = .ok (.inc (.abx 0x1234), []) := by
  decide

theorem test_decode_dec :
    decode [0b11000110, 0x34] = .ok (.dec (.zp 0x34), []) ∧
      decode [0b11010110, 0x34] = .ok (.dec (.zpx 0x34), []) ∧
      decode [0b11001110, 0x34, 0x12] = .ok (.dec (.abs 0x1234), []) ∧
      decode [0b11011110, 0x34, 0x12] = .ok (.dec (.abx 0x1234), []) := by
  decide

theorem test_decode_inx :
    decode [0b11101000] = .ok (.inx, []) := by
  decide

theorem test_decode_iny :
    decode [0b11001000] = .ok (.iny, []) := by
  decide

theorem test_decode_dex :
    decode [0b11001010] = .ok (.dex, []) := by
  decide

theorem test_decode_dey :
    decode [0b10001000] = .ok (.dey, []) := by
  decide

theorem test_decode_pha :
    decode [0b01001000] = .ok (.pha, []) := by
  decide

theorem test_decode_php :
    decode [0b00001000] = .ok (.php, []) := by
  decide

theorem test_decode_pla :
    decode [0b01101000] = .ok (.pla, []) := by
  decide

theorem test_decode_plp :
    decode [0b00101000] = .ok (.plp, []) := by
  decide

theorem test_decode_jmp :
    decode [0b01001100, 0x34, 0x12] = .ok (.jmp (.abs 0x1234), []) ∧
      decode [0b01101100, 0x34, 0x12] = .ok (.jmp (.ind 0x1234), []) := by
  decide

theorem test_decode_jsr :
    decode [0b00100000, 0x34, 0x12] = .ok (.jsr 0x1234, []) := by
  decide

theorem test_decode_rts :
    decode [0b01100000] = .ok (.rts, []) := by
  decide

theorem test_decode_rti :
    decode [0b01000000] = .ok (.rti, []) := by
  decide

theorem test_decode_brk :
    decode [0b00000000] = .ok (.brk, []) := by
  decide

theorem test_decode_bpl :
    decode [0b00010000, 0x34] = .ok (.bpl 0x34, []) := by
  decide

theorem test_decode_bmi :
    decode [0b00110000, 0x34] = .ok (.bmi 0x34, []) := by
  decide

theorem test_decode_bvc :
    decode [0b01010000, 0x34] = .ok (.bvc 0x34, []) := by
  decide

theorem test_decode_bvs :
    decode [0b01110000, 0x34] = .ok (.bvs 0x34, []) := by
  decide

theorem test_decode_bcc :
    decode [0b10010000, 0x34] = .ok (.bcc 0x34, []) := by
  decide

theorem test_decode_bcs :
    decode [0b10110000, 0x34] = .ok (.bcs 0x34, []) := by
  decide

theorem test_decode_bne :
    decode [0b11010000, 0x34] = .ok (.bne 0x34, []) := by
  decide

theorem test_decode_beq :
    decode [0b11110000, 0x34] = .ok (.beq 0x34, []) := by
  decide

theorem test_decode_clc :
    decode [0b00011000] = .ok (.clc, []) := by
  decide

theorem test_decode_sec :
    decode [0b00111000] = .ok (.sec, []) := by
  decide

theorem test_decode_cli :
    decode [0b01011000] = .ok (.cli, []) := by
  decide

theorem test_decode_sei :
    decode [0b01111000] = .ok (.sei, []) := by
  decide

theorem test_decode_cld :
    decode [0b11011000] = .ok (.cld, []) := by
  decide

theorem test_decode_sed :
    decode [0b11111000] = .ok (.sed, []) := by
  decide

theorem test_decode_clv :
    decode [0b10111000] = .ok (.clv, []) := by
  decide

theorem test_decode_nop :
    decode [0b11101010] = .ok (.nop, []) := by
  decide

theorem test_decode_undef :
    decode [0b00000010, 0x34] = .ok (.undef 0x02, [0x34]) ∧ decode [0b10000000, 0x01] = .ok (.undef 0x80, [0x01]) ∧
      decode [0b11111111] = .ok (.undef 0xFF, []) := by
  decide

theorem test_decode_rejects_short :
    decode [] = .error .noOpcode ∧ decode [0xA9] = .error (.missingOperand 0xA9) ∧
      decode [0xAD, 0x34] = .error (.missingOperand 0xAD) := by
  decide

/-! ### One step of each instruction, from a vector of spec/95_test_vectors.md -/

/-- Memory with the given bytes. -/
def cells (l : List (Nat × Byte)) : Memory := l.foldl (fun m c => m.write c.1 c.2) []

/-- The default start state of the vectors with PC at `pc` and the given bytes in memory. -/
def start (pc : Addr) (l : List (Nat × Byte)) : State := (State.reset.setPc pc).setMem (cells l)

/-- A field of the state after one step. -/
def after {α : Type} (f : State → α) (s : State) : Option α :=
  match step s with
  | .next t => some (f t)
  | _ => none

/-- A17. -/
theorem test_lda :
    after (fun t => (t.a, t.p, t.pc, t.cycles)) ((start 0x0200 [(0x0200, 0xB1), (0x0201, 0xFF), (0x0000, 0x40), (0x00FF, 0x00), (0x4000, 0x9E)]).setY 0x00) =
      some (0x9E, 0xA4, 0x0202, some 5) := by
  decide

/-- A5. -/
theorem test_ldx :
    after (fun t => (t.x, t.pc, t.p, t.cycles)) ((start 0x0200 [(0x0200, 0xB6), (0x0201, 0xF0), (0x0010, 0x01), (0x0110, 0x02)]).setY 0x20) =
      some (0x01, 0x0202, 0x24, some 4) := by
  decide

/-- B4. -/
theorem test_ldy :
    after (fun t => (t.y, t.pc, t.p, t.cycles)) ((start 0x0200 [(0x0200, 0xB4), (0x0201, 0x10), (0x0012, 0x01)]).setX 0x02) =
      some (0x01, 0x0202, 0x24, some 4) := by
  decide

/-- B6. -/
theorem test_sta :
    after (fun t => (t.pc, t.p, [t.mem.read 0x3001], t.cycles)) ((((start 0x0200 [(0x0200, 0x91), (0x0201, 0x20), (0x0020, 0x00), (0x0021, 0x30)]).setA 0x00).setY 0x01).setP 0xA5) =
      some (0x0202, 0xA5, [0x00], some 6) := by
  decide

/-- B7. -/
theorem test_stx :
    after (fun t => (t.pc, t.p, [t.mem.read 0x0010], t.cycles)) (((start 0x0200 [(0x0200, 0x96), (0x0201, 0x1B)]).setX 0xAB).setY 0xF5) =
      some (0x0202, 0x24, [0xAB], some 4) := by
  decide

/-- B8. -/
theorem test_sty :
    after (fun t => (t.pc, t.p, [t.mem.read 0x0300], t.cycles)) ((start 0x0200 [(0x0200, 0x8C), (0x0201, 0x00), (0x0202, 0x03)]).setY 0xCD) =
      some (0x0203, 0x24, [0xCD], some 4) := by
  decide

/-- B9. -/
theorem test_tax :
    after (fun t => (t.x, t.p, t.pc, t.cycles)) (((start 0x0200 [(0x0200, 0xAA)]).setA 0x00).setX 0x12) =
      some (0x00, 0x26, 0x0201, some 2) := by
  decide

/-- B10. -/
theorem test_tay :
    after (fun t => (t.y, t.p, t.pc, t.cycles)) ((start 0x0200 [(0x0200, 0xA8)]).setA 0x90) =
      some (0x90, 0xA4, 0x0201, some 2) := by
  decide

/-- B11. -/
theorem test_txa :
    after (fun t => (t.a, t.pc, t.p, t.cycles)) ((start 0x0200 [(0x0200, 0x8A)]).setX 0x7F) =
      some (0x7F, 0x0201, 0x24, some 2) := by
  decide

/-- B12. -/
theorem test_tya :
    after (fun t => (t.a, t.p, t.pc, t.cycles)) ((start 0x0200 [(0x0200, 0x98)]).setY 0xFF) =
      some (0xFF, 0xA4, 0x0201, some 2) := by
  decide

/-- B13. -/
theorem test_tsx :
    after (fun t => (t.x, t.p, t.pc, t.cycles)) (start 0x0200 [(0x0200, 0xBA)]) =
      some (0xFD, 0xA4, 0x0201, some 2) := by
  decide

/-- B14. -/
theorem test_txs :
    after (fun t => (t.sp, t.pc, t.p, t.cycles)) (((start 0x0200 [(0x0200, 0x9A)]).setX 0x00).setP 0xA4) =
      some (0x00, 0x0201, 0xA4, some 2) := by
  decide

/-- C5. -/
theorem test_adc :
    after (fun t => (t.a, t.p, t.pc, t.cycles)) (((start 0x0200 [(0x0200, 0x69), (0x0201, 0x00)]).setA 0x7F).setP 0x25) =
      some (0x80, 0xE4, 0x0202, some 2) := by
  decide

/-- C10. -/
theorem test_sbc :
    after (fun t => (t.a, t.p, t.pc, t.cycles)) (((start 0x0200 [(0x0200, 0xE9), (0x0201, 0x01)]).setA 0x80).setP 0x25) =
      some (0x7F, 0x65, 0x0202, some 2) := by
  decide

/-- C15. -/
theorem test_cmp :
    after (fun t => (t.p, t.pc, t.cycles)) ((start 0x0200 [(0x0200, 0xC9), (0x0201, 0x80)]).setA 0x00) =
      some (0xA4, 0x0202, some 2) := by
  decide

/-- C16. -/
theorem test_cpx :
    after (fun t => (t.p, t.pc, t.cycles)) ((start 0x0200 [(0x0200, 0xE0), (0x0201, 0x03)]).setX 0x03) =
      some (0x27, 0x0202, some 2) := by
  decide

/-- C17. -/
theorem test_cpy :
    after (fun t => (t.p, t.pc, t.cycles)) ((start 0x0200 [(0x0200, 0xC4), (0x0201, 0x10), (0x0010, 0x03)]).setY 0x02) =
      some (0xA4, 0x0202, some 3) := by
  decide

/-- C18. -/
theorem test_and :
    after (fun t => (t.a, t.p, t.pc, t.cycles)) ((start 0x0200 [(0x0200, 0x29), (0x0201, 0x0F)]).setA 0xF0) =
      some (0x00, 0x26, 0x0202, some 2) := by
  decide

/-- C19. -/
theorem test_ora :
    after (fun t => (t.a, t.p, t.pc, t.cycles)) ((start 0x0200 [(0x0200, 0x09), (0x0201, 0x80)]).setA 0x01) =
      some (0x81, 0xA4, 0x0202, some 2) := by
  decide

/-- C20. -/
theorem test_eor :
    after (fun t => (t.a, t.p, t.pc, t.cycles)) ((start 0x0200 [(0x0200, 0x49), (0x0201, 0xFF)]).setA 0xFF) =
      some (0x00, 0x26, 0x0202, some 2) := by
  decide

/-- C22. -/
theorem test_bit :
    after (fun t => (t.p, t.pc, t.cycles)) (((start 0x0200 [(0x0200, 0x2C), (0x0201, 0x00), (0x0202, 0x03), (0x0300, 0x3F)]).setA 0xFF).setP 0xE4) =
      some (0x24, 0x0203, some 4) := by
  decide

/-- D3. -/
theorem test_asl :
    after (fun t => (t.p, t.pc, [t.mem.read 0x1300], t.cycles)) ((start 0x0200 [(0x0200, 0x1E), (0x0201, 0xFF), (0x0202, 0x12), (0x1300, 0x40)]).setX 0x01) =
      some (0xA4, 0x0203, [0x80], some 7) := by
  decide

/-- D4. -/
theorem test_lsr :
    after (fun t => (t.p, t.pc, [t.mem.read 0x0010], t.cycles)) (start 0x0200 [(0x0200, 0x46), (0x0201, 0x10), (0x0010, 0x03)]) =
      some (0x25, 0x0202, [0x01], some 5) := by
  decide

/-- D6. -/
theorem test_rol :
    after (fun t => (t.a, t.p, t.pc, t.cycles)) (((start 0x0200 [(0x0200, 0x2A)]).setA 0x40).setP 0x25) =
      some (0x81, 0xA4, 0x0201, some 2) := by
  decide

/-- D8. -/
theorem test_ror :
    after (fun t => (t.a, t.p, t.pc, t.cycles)) (((start 0x0200 [(0x0200, 0x6A)]).setA 0x02).setP 0x25) =
      some (0x81, 0xA4, 0x0201, some 2) := by
  decide

/-- D11. -/
theorem test_inc :
    after (fun t => (t.p, t.pc, [t.mem.read 0x0010], t.cycles)) ((start 0x0200 [(0x0200, 0xE6), (0x0201, 0x10), (0x0010, 0xFF)]).setP 0x25) =
      some (0x27, 0x0202, [0x00], some 5) := by
  decide

/-- D13. -/
theorem test_dec :
    after (fun t => (t.p, t.pc, [t.mem.read 0x0001], t.cycles)) ((start 0x0200 [(0x0200, 0xD6), (0x0201, 0xFF), (0x0001, 0x01)]).setX 0x02) =
      some (0x26, 0x0202, [0x00], some 6) := by
  decide

/-- D14. -/
theorem test_inx :
    after (fun t => (t.x, t.p, t.pc, t.cycles)) ((start 0x0200 [(0x0200, 0xE8)]).setX 0xFF) =
      some (0x00, 0x26, 0x0201, some 2) := by
  decide

/-- D15. -/
theorem test_iny :
    after (fun t => (t.y, t.p, t.pc, t.cycles)) ((start 0x0200 [(0x0200, 0xC8)]).setY 0x7F) =
      some (0x80, 0xA4, 0x0201, some 2) := by
  decide

/-- D16. -/
theorem test_dex :
    after (fun t => (t.x, t.p, t.pc, t.cycles)) ((start 0x0200 [(0x0200, 0xCA)]).setX 0x00) =
      some (0xFF, 0xA4, 0x0201, some 2) := by
  decide

/-- D17. -/
theorem test_dey :
    after (fun t => (t.y, t.p, t.pc, t.cycles)) ((start 0x0200 [(0x0200, 0x88)]).setY 0x01) =
      some (0x00, 0x26, 0x0201, some 2) := by
  decide

/-- E2. -/
theorem test_pha :
    after (fun t => (t.sp, t.pc, t.p, [t.mem.read 0x0100], t.cycles)) (((start 0x0200 [(0x0200, 0x48)]).setA 0x42).setSp 0x00) =
      some (0xFF, 0x0201, 0x24, [0x42], some 3) := by
  decide

/-- E3. -/
theorem test_php :
    after (fun t => (t.sp, t.pc, t.p, [t.mem.read 0x01FF], t.cycles)) ((start 0x0200 [(0x0200, 0x08)]).setSp 0xFF) =
      some (0xFE, 0x0201, 0x24, [0x34], some 3) := by
  decide

/-- E5. -/
theorem test_pla :
    after (fun t => (t.sp, t.p, t.pc, t.cycles)) ((start 0x0200 [(0x0200, 0x68), (0x0100, 0x00)]).setSp 0xFF) =
      some (0x00, 0x26, 0x0201, some 4) := by
  decide

/-- E6. -/
theorem test_plp :
    after (fun t => (t.sp, t.p, t.pc, t.cycles)) ((start 0x0200 [(0x0200, 0x28), (0x01FD, 0x00)]).setSp 0xFC) =
      some (0xFD, 0x20, 0x0201, some 4) := by
  decide

/-- A12. -/
theorem test_jmp :
    after (fun t => (t.pc, t.p, t.cycles)) (start 0x0200 [(0x0200, 0x6C), (0x0201, 0xFF), (0x0202, 0x10), (0x1000, 0x12), (0x10FF, 0x34), (0x1100, 0x56)]) =
      some (0x1234, 0x24, some 5) := by
  decide

/-- E9. -/
theorem test_jsr :
    after (fun t => (t.sp, t.pc, t.p, [t.mem.read 0x01FF, t.mem.read 0x01FE], t.cycles)) ((start 0x0200 [(0x0200, 0x20), (0x0201, 0x10), (0x0202, 0x02)]).setSp 0xFF) =
      some (0xFD, 0x0210, 0x24, [0x02, 0x02], some 6) := by
  decide

/-- E11. -/
theorem test_rts :
    after (fun t => (t.sp, t.pc, t.p, t.cycles)) ((start 0x0200 [(0x0200, 0x60), (0x01FE, 0xFF), (0x01FF, 0xFF)]).setSp 0xFD) =
      some (0xFF, 0x0000, 0x24, some 6) := by
  decide

/-- E12. -/
theorem test_rti :
    after (fun t => (t.sp, t.p, t.pc, t.cycles)) ((start 0x0200 [(0x0200, 0x40), (0x01FB, 0x34), (0x01FC, 0x02), (0x01FD, 0x02)]).setSp 0xFA) =
      some (0xFD, 0x34, 0x0202, some 6) := by
  decide

/-- E14. -/
theorem test_brk :
    after (fun t => (t.sp, t.p, t.pc, [t.mem.read 0x01FD, t.mem.read 0x01FC, t.mem.read 0x01FB], t.cycles)) ((start 0x0200 [(0x0200, 0x00), (0xFFFE, 0x00), (0xFFFF, 0x80)]).setP 0x29) =
      some (0xFA, 0x2D, 0x8000, [0x02, 0x02, 0x39], some 7) := by
  decide

/-- F1. -/
theorem test_bpl :
    after (fun t => (t.pc, t.p, t.cycles)) (start 0x0200 [(0x0200, 0x10), (0x0201, 0x10)]) =
      some (0x0212, 0x24, some 3) := by
  decide

/-- F2. -/
theorem test_bmi :
    after (fun t => (t.pc, t.p, t.cycles)) (start 0x0200 [(0x0200, 0x30), (0x0201, 0x10)]) =
      some (0x0202, 0x24, some 2) := by
  decide

/-- F3. -/
theorem test_bvc :
    after (fun t => (t.pc, t.p, t.cycles)) (start 0x0200 [(0x0200, 0x50), (0x0201, 0x02)]) =
      some (0x0204, 0x24, some 3) := by
  decide

/-- F4. -/
theorem test_bvs :
    after (fun t => (t.pc, t.p, t.cycles)) ((start 0x0200 [(0x0200, 0x70), (0x0201, 0x02)]).setP 0x64) =
      some (0x0204, 0x64, some 3) := by
  decide

/-- F5. -/
theorem test_bcc :
    after (fun t => (t.pc, t.p, t.cycles)) ((start 0x0200 [(0x0200, 0x90), (0x0201, 0x02)]).setP 0x25) =
      some (0x0202, 0x25, some 2) := by
  decide

/-- F6. -/
theorem test_bcs :
    after (fun t => (t.pc, t.p, t.cycles)) ((start 0x0200 [(0x0200, 0xB0), (0x0201, 0x80)]).setP 0x25) =
      some (0x0182, 0x25, some 4) := by
  decide

/-- F10. -/
theorem test_bne :
    after (fun t => (t.pc, t.p, t.cycles)) (start 0x02FD [(0x02FD, 0xD0), (0x02FE, 0x01)]) =
      some (0x0300, 0x24, some 4) := by
  decide

/-- F8. -/
theorem test_beq :
    after (fun t => (t.pc, t.p, t.cycles)) ((start 0x0200 [(0x0200, 0xF0), (0x0201, 0xFE)]).setP 0x26) =
      some (0x0200, 0x26, some 3) := by
  decide

/-- G1. -/
theorem test_clc :
    after (fun t => (t.p, t.pc, t.cycles)) ((start 0x0200 [(0x0200, 0x18)]).setP 0x25) =
      some (0x24, 0x0201, some 2) := by
  decide

/-- G2. -/
theorem test_sec :
    after (fun t => (t.p, t.pc, t.cycles)) (start 0x0200 [(0x0200, 0x38)]) =
      some (0x25, 0x0201, some 2) := by
  decide

/-- G3. -/
theorem test_cli :
    after (fun t => (t.p, t.pc, t.cycles)) (start 0x0200 [(0x0200, 0x58)]) =
      some (0x20, 0x0201, some 2) := by
  decide

/-- G4. -/
theorem test_sei :
    after (fun t => (t.p, t.pc, t.cycles)) ((start 0x0200 [(0x0200, 0x78)]).setP 0x20) =
      some (0x24, 0x0201, some 2) := by
  decide

/-- G5. -/
theorem test_cld :
    after (fun t => (t.p, t.pc, t.cycles)) ((start 0x0200 [(0x0200, 0xD8)]).setP 0x2C) =
      some (0x24, 0x0201, some 2) := by
  decide

/-- G6. -/
theorem test_sed :
    after (fun t => (t.p, t.pc, t.cycles)) (start 0x0200 [(0x0200, 0xF8)]) =
      some (0x2C, 0x0201, some 2) := by
  decide

/-- G7. -/
theorem test_clv :
    after (fun t => (t.p, t.pc, t.cycles)) ((start 0x0200 [(0x0200, 0xB8)]).setP 0x64) =
      some (0x24, 0x0201, some 2) := by
  decide

/-- G8. -/
theorem test_nop :
    after (fun t => (t.pc, t.p, t.cycles)) (start 0x0200 [(0x0200, 0xEA)]) =
      some (0x0201, 0x24, some 2) := by
  decide

/-- G9. -/
theorem test_undef :
    after (fun t => (t.pc, t.p, t.cycles, t.diag)) (((start 0x0200 [(0x0200, 0x02), (0x0201, 0xA9)]).setA 0x12).setP 0xE7) =
      some (0x0201, 0xE7, some 2, [.undefinedOpcode 0x0200 0x02]) := by
  decide

/-- The bus of a step: vector A12, the pointer bytes of the same page. -/
theorem test_jmp_ind_bus :
    after State.bus (start 0x0200 [(0x0200, 0x6C), (0x0201, 0xFF), (0x0202, 0x10), (0x1000, 0x12), (0x10FF, 0x34)]) =
      some [.read 0x0200 0x6C, .read 0x0201 0xFF, .read 0x0202 0x10, .read 0x10FF 0x34, .read 0x1000 0x12] := by
  decide

/-- RESET of the default memory, and the first step after reset: BRK of a zero byte (logs 4 and 5). -/
theorem test_reset : State.reset.pc = 0x0000 ∧ State.reset.sp = 0xFD ∧ State.reset.p = 0x24 := by decide

/-- A table word at PC is the first instruction after reset: LDA #$34. -/
theorem test_withFetchWord :
    decodeTableWord 16 0x34A9 = some (.lda (.imm 0x34)) ∧
      after (fun t => (t.a, t.pc)) (State.reset.withFetchWord 16 0x34A9) = some (0x34, 0x0002) := by
  decide

/-- A word whose operand bits the table does not give: JMP to 0x0000. -/
theorem test_withFetchWord_short :
    decodeTableWord 8 0x4C = some (.jmp (.abs 0x0000)) ∧
      after (fun t => t.pc) ((State.reset.setPc 0xFFFE).withFetchWord 8 0x4C) = some 0x0000 := by
  decide

/-! ### Data that meet the hypotheses of the obligations, clause by clause -/

/-- A machine after reset with an intercepted address and a page-crossing pointer in zero page. -/
def wired : State := { start 0x0200 [(0x0000, 0xFF), (0x0001, 0x12)] with cfg := { Config.spec with ioAddrs := [0xD000] } }

theorem test_meets_DecodeEncodeRoundTrip :
    (Instr.lda (.izy 0xFF)).wf = true ∧ (Instr.jsr 0xFFFF).wf = true ∧ (Instr.undef 0xFF).wf = true := by
  decide

theorem test_meets_DecodedBytesAreTheEncoding :
    decode [0x4C, 0x00, 0x80, 0xEA] = .ok (.jmp (.abs 0x8000), [0xEA]) ∧ decode [0x02] = .ok (.undef 0x02, []) := by
  decide

/-- One instruction for each class of the table, and both outcomes of `op ∈ undefinedOpcodes`. -/
theorem test_meets_TableRowOfEachInstruction :
    (Instr.lda (.abx 0x12FF)).mnemonic ≠ .undef ∧ (Instr.sta (.abx 0x12FF)).mnemonic ≠ .undef ∧
      (Instr.bne 0x01).mnemonic ≠ .undef ∧ (Instr.asl .acc).mnemonic ≠ .undef ∧ (0x02 : Byte) ∈ undefinedOpcodes ∧
      (0xA9 : Byte) ∉ undefinedOpcodes := by
  decide

/-- A one-byte, a two-byte and a three-byte instruction at the end of the address space. -/
theorem test_meets_StepRunsTheDecodedInstruction :
    State.reset.resetDone = true ∧
      (let f0 := fetch8 ((start 0xFFFE [(0xFFFE, 0x4C), (0xFFFF, 0x34), (0x0000, 0x12)]).setBus [])
       let f1 := fetch8 f0.st
       let f2 := fetch8 f1.st
       decode [f0.value, f1.value, f2.value] = .ok (.jmp (.abs 0x1234), [])) ∧
      decode [0xA9, 0x00, 0x00] = .ok (.lda (.imm 0x00), [0x00]) ∧ decode [0xE8, 0x00, 0x00] = .ok (.inx, [0x00, 0x00]) := by
  decide

theorem test_meets_FetchOnTheDefaultPath :
    (start 0xFFFE [(0xFFFE, 0x4C), (0xFFFF, 0x34), (0x0000, 0x12)]).resetDone = true ∧
      (∀ k : Addr, k.toNat < 3 → (start 0xFFFE []).intercepted ((start 0xFFFE []).pc + k) = false) ∧
      decode [(cells [(0x0000, 0x12), (0xFFFE, 0x4C), (0xFFFF, 0x34)]).read 0xFFFE,
        (cells [(0x0000, 0x12), (0xFFFE, 0x4C), (0xFFFF, 0x34)]).read 0xFFFF,
        (cells [(0x0000, 0x12), (0xFFFE, 0x4C), (0xFFFF, 0x34)]).read 0x0000] = .ok (.jmp (.abs 0x1234), []) :=
  ⟨rfl, fun _ _ => rfl, by decide⟩

theorem test_meets_RefusedBeforeReset : (State.constructed Config.spec []).resetDone = false := rfl

/-- EveryStepCompletesAndReportsCycles, with its inner premise. -/
theorem test_meets_EveryStepCompletes : State.reset.resetDone = true ∧ State.reset.cfg.undefCycles = 2 := ⟨rfl, rfl⟩

theorem test_meets_StepKeepsInv :
    (start 0x0200 [(0x0200, 0x48)]).Inv ∧
      step (start 0x0200 [(0x0200, 0x48)]) =
        .next ((((start 0x0201 [(0x0200, 0x48)]).setSp 0xFC).setBus [.read 0x0200 0x48, .write 0x01FD 0x00]).setCycles (some 3)) := by
  exact ⟨by decide, rfl⟩

/-- The three acts of the host. -/
theorem test_meets_HostActsKeepInv :
    State.reset.mem.wf ∧ State.reset.Inv ∧ hostAct .reset State.reset = .next State.reset ∧
      hostAct (.poke 0xFFFF 0x80) State.reset = .next (State.reset.setMem [(0xFFFF, 0x80)]) ∧
      hostAct .step State.reset = step State.reset :=
  ⟨by decide, by decide, rfl, rfl, rfl⟩

theorem test_meets_PlainStepsAdvancePc :
    let i := (fetchInstr (beginStep (start 0xFFFF [(0xFFFF, 0xA9)]))).instr
    (start 0xFFFF [(0xFFFF, 0xA9)]).resetDone = true ∧ i.mode ≠ .rel ∧
      i.mnemonic ∉ [Mnemonic.jmp, .jsr, .rts, .rti, .brk] := by
  decide

/-- A row of each class. -/
theorem test_meets_CycleBounds :
    (rowOf (opcodeOf (.lda (.izy 0x20)))).map (fun r => r.extra) = some .page ∧
      (rowOf (opcodeOf (.beq 0xFE))).map (fun r => r.extra) = some .branch ∧
      (rowOf (opcodeOf (.inc (.abx 0x12FF)))).map (fun r => r.extra) = some .none := by
  decide

theorem test_meets_DiagOnlyFromUndefined : (Instr.undef 0x02).mnemonic = .undef ∧ Instr.nop.mnemonic ≠ .undef := by decide

theorem test_meets_PlacedInstructionRuns :
    decodeTableWord 24 0x12346C = some (.jmp (.ind 0x1234)) ∧ decodeTableWord 8 0x00 = some .brk ∧
      decodeTableWord 8 0xFF = some (.undef 0xFF) := by
  decide

/-- For each clause an instruction outside its list. -/
theorem test_meets_WritersOfTheRegisters :
    (Instr.sta (.zp 0x00)).mnemonic ∉ [Mnemonic.lda, .txa, .tya, .pla, .adc, .sbc, .and, .ora, .eor] ∧
      (Instr.sta (.zp 0x00)).mode ≠ .acc ∧ Instr.dey.mnemonic ∉ [Mnemonic.ldx, .tax, .tsx, .inx, .dex] ∧
      Instr.dex.mnemonic ∉ [Mnemonic.ldy, .tay, .iny, .dey] ∧
      Instr.tsx.mnemonic ∉ [Mnemonic.txs, .pha, .php, .pla, .plp, .jsr, .rts, .brk, .rti] ∧ Instr.nop.mode ≠ .rel ∧
      Instr.nop.mnemonic ∉ [Mnemonic.jmp, .jsr, .rts, .rti, .brk] := by
  decide

theorem test_meets_WritersOfTheFlags :
    (Instr.inc (.zp 0x00)).mnemonic ∉
        [Mnemonic.adc, .sbc, .cmp, .cpx, .cpy, .asl, .lsr, .rol, .ror, .sec, .clc, .plp, .rti] ∧
      (Instr.cmp (.imm 0x00)).mnemonic ∉ [Mnemonic.adc, .sbc, .bit, .clv, .plp, .rti] ∧
      Instr.php.mnemonic ∉ [Mnemonic.sei, .cli, .brk, .plp, .rti] ∧
      Instr.brk.mnemonic ∉ [Mnemonic.sed, .cld, .plp, .rti] ∧ Instr.brk.mnemonic ∉ [Mnemonic.plp, .rti] := by
  decide

theorem test_meets_WritersOfZeroAndNegative : Instr.txs.mnemonic ∈ [Mnemonic.sta, .txs, .undef] := by decide

theorem test_meets_BreakBitIsUnobservable :
    Instr.plp.mnemonic ∈ [Mnemonic.plp, .rti] ∧ Instr.php.mnemonic ∉ [Mnemonic.plp, .rti] := by
  decide

/-- DecimalFlagSteersNothing and InterruptFlagSteersNothing. -/
theorem test_meets_FlagsSteerNothing :
    (Instr.adc (.imm 0x01)).mnemonic ∉ [Mnemonic.php, .brk, .plp, .rti, .cld, .sed] ∧
      Instr.sei.mnemonic ∉ [Mnemonic.php, .brk, .plp, .rti, .cld, .sed] ∧
      Instr.sed.mnemonic ∉ [Mnemonic.php, .brk, .plp, .rti, .cli, .sei] := by
  decide

/-- Vector C6: no decimal correction. -/
theorem test_adc_decimal :
    after (fun t => (t.a, t.p)) (((start 0x0200 [(0x0200, 0x69), (0x0201, 0x01)]).setA 0x09).setP 0x2C) =
      some (0x0A, 0x2C) := by
  decide

theorem test_meets_IndirectPointerStaysInItsPage :
    (Instr.jmp (.ind 0x10FF)).mode = .ind ∧ (0x1234 : Addr).toNat % 256 ≠ 255 ∧ (0x10FF : Addr).toNat % 256 = 255 ∧ (0xFFFF : Addr).toNat % 256 = 255 := by
  decide

/-- ResetSequence and DefaultPathIsTheArray: default parameters, and an address the host does not intercept, which is also the
premise inside `Answers` and `Stores`. -/
theorem test_meets_ResetSequence_and_DefaultPath :
    State.reset.cfg = Config.spec ∧ wired.intercepted 0xCFFF = false ∧ wired.intercepted 0xFFFC = false := by
  decide

theorem test_meets_InterceptedAddressesAreFree : wired.intercepted 0xD000 = true := by decide

theorem test_meets_StoresAreFetched : wired.intercepted 0x0200 = false := by decide

/-- The resolver's two outcomes: a crossed page (also by wrapping past 0xFFFF, A9) and none; with and without penalty. -/
theorem test_meets_EffectiveAddresses :
    (resolve (.abx 0x12FF) true (wired.setX 0x01)).extra = 1 ∧ (resolve (.abx 0xFFF0) true (wired.setX 0x20)).extra = 1 ∧
      (resolve (.abx 0x1200) true (wired.setX 0x34)).extra = 0 ∧ (resolve (.abx 0x12FF) false (wired.setX 0x01)).extra = 0 ∧
      (resolve (.izy 0x00) true (wired.setY 0x01)).extra = 1 ∧ (resolve (.izy 0x00) true wired).extra = 0 := by
  decide

/-- StackWrapsSilently: n = 256, and a stack page that is not intercepted. -/
theorem test_meets_StackWrapsSilently :
    (256 : Nat) ≤ 256 ∧ wired.intercepted (word wired.cfg.stackPage 0x00) = false ∧
      wired.intercepted (word wired.cfg.stackPage 0xFF) = false := by
  decide

theorem test_meets_RtsUndoesJsr :
    (wired.setSp 0x00).intercepted (slot (wired.setSp 0x00) 0) = false ∧
      (wired.setSp 0x00).intercepted (slot (wired.setSp 0x00) 1) = false := by
  decide

theorem test_meets_RtiUndoesBrk :
    ∀ k : Byte, k.toNat < 3 → State.reset.intercepted (slot State.reset k) = false := fun _ _ => rfl

/-- A branch taken and not taken, within a page and into another (F10, F7). -/
theorem test_meets_BranchesFollowTheirFlag :
    State.reset.flagN = false ∧ (State.reset.setP 0xFF).flagN = true ∧ State.reset.flagV = false ∧
      (State.reset.setP 0xFF).flagV = true ∧ State.reset.flagC = false ∧ (State.reset.setP 0xFF).flagC = true ∧
      State.reset.flagZ = false ∧ (State.reset.setP 0xFF).flagZ = true ∧ crosses 0x02FF 0x0300 ∧
      ¬ crosses 0x020A 0x0205 ∧ crosses 0xFFFF 0x0000 := by
  unfold crosses page
  decide

theorem test_meets_UndefinedOpcodeStep :
    (0xFF : Byte) ∈ undefinedOpcodes ∧ (start 0xFFFF [(0xFFFF, 0xFF)]).answer (start 0xFFFF [(0xFFFF, 0xFF)]).pc = 0xFF ∧
      (start 0xFFFF [(0xFFFF, 0xFF)]).resetDone = true := by
  decide

/-- UndefinedBytesAreWalkedThrough over the end of the address space (P5 has such a run). -/
theorem test_meets_UndefinedBytesAreWalkedThrough :
    let s := start 0xFFFF [(0xFFFF, 0x02), (0x0000, 0xFF)]
    s.resetDone = true ∧
      ∀ k, k < 2 → s.intercepted (s.pc + BitVec.ofNat 16 k) = false ∧
        s.mem.read (s.pc + BitVec.ofNat 16 k).toNat ∈ undefinedOpcodes := by
  decide

/-- UnusedStatusBitIsAlwaysSet: an observation of a stored P whose bit 5 is 0. -/
theorem test_meets_UnusedStatusBitIsAlwaysSet :
    observe (State.reset.setP 0x00) = .ok { a := 0, x := 0, y := 0, sp := 0xFD, pc := 0, p := 0x20 } := by
  decide

end Sys2Proof.Tests
end

section
/-! What every instruction may change and what it keeps, said once: the parts of the state it writes, and that it keeps the
invariant. -/

namespace Sys2Proof.Machine

open Sys2Proof.Claims

/-- The parts of the state that instructions differ in writing; a bit of P is a part of its own. -/
inductive StatePart where
  | a | x | y | sp | pc | mem | diag
  | bit (k : Nat)

/-- The part is the same in both states. -/
def StatePart.Same (s t : State) : StatePart → Prop
  | .a => t.a = s.a
  | .x => t.x = s.x
  | .y => t.y = s.y
  | .sp => t.sp = s.sp
  | .pc => t.pc = s.pc
  | .mem => t.mem = s.mem
  | .diag => t.diag = s.diag
  | .bit k => t.p.getLsbD k = s.p.getLsbD k

theorem StatePart.Same.trans {s t u : State} {f : StatePart} (h : f.Same s t) (k : f.Same t u) : f.Same s u := by
  cases f <;> exact Eq.trans k h

/-- From `s` to `t` no part outside `l` changes, nor do the parameters and the reset mark; canonical memory stays so, and
bit 5 of P stays set. -/
structure Within (l : List StatePart) (s t : State) : Prop where
  same : ∀ f, f ∉ l → f.Same s t
  cfg : t.cfg = s.cfg
  resetDone : t.resetDone = s.resetDone
  wf : s.mem.wf → t.mem.wf
  bit5 : s.p.getLsbD 5 = true → t.p.getLsbD 5 = true

theorem Within.trans {l m : List StatePart} {s t u : State} (h : Within l s t) (k : Within m t u) :
    Within (l ++ m) s u where
  same f hf := by
    simp only [List.mem_append, not_or] at hf
    exact (h.same f hf.1).trans (k.same f hf.2)
  cfg := k.cfg.trans h.cfg
  resetDone := k.resetDone.trans h.resetDone
  wf hw := k.wf (h.wf hw)
  bit5 hp := k.bit5 (h.bit5 hp)

theorem Within.inv {l : List StatePart} {s t : State} (h : Within l s t) (hs : s.Inv) : t.Inv :=
  ⟨h.wf hs.1, h.bit5 hs.2⟩

/-! ### One field, one bit -/

section
variable (s : State)

theorem setA_within (v : Byte) : Within [.a] s (s.setA v) :=
  ⟨fun f hf => by cases f with
    | a => simp at hf
    | _ => rfl, rfl, rfl, id, id⟩

theorem setX_within (v : Byte) : Within [.x] s (s.setX v) :=
  ⟨fun f hf => by cases f with
    | x => simp at hf
    | _ => rfl, rfl, rfl, id, id⟩

theorem setY_within (v : Byte) : Within [.y] s (s.setY v) :=
  ⟨fun f hf => by cases f with
    | y => simp at hf
    | _ => rfl, rfl, rfl, id, id⟩

theorem setSp_within (v : Byte) : Within [.sp] s (s.setSp v) :=
  ⟨fun f hf => by cases f with
    | sp => simp at hf
    | _ => rfl, rfl, rfl, id, id⟩

theorem setPc_within (v : Addr) : Within [.pc] s (s.setPc v) :=
  ⟨fun f hf => by cases f with
    | pc => simp at hf
    | _ => rfl, rfl, rfl, id, id⟩

theorem setDiag_within (l : List DiagEvent) : Within [.diag] s (s.setDiag l) :=
  ⟨fun f hf => by cases f with
    | diag => simp at hf
    | _ => rfl, rfl, rfl, id, id⟩

theorem setCycles_within (n : Option Nat) : Within [] s (s.setCycles n) :=
  ⟨fun f _ => by cases f <;> rfl, rfl, rfl, id, id⟩

/-- A write of one bit of P, other than bit 5. -/
theorem setBit_within {k : Nat} (hk : k ≠ 5) (b : Bool) : Within [.bit k] s (s.setP (setBit s.p k b)) where
  same f hf := by
    cases f with
    | bit j =>
      have hj : j ≠ k := by simpa using hf
      simp [StatePart.Same, hj]
    | _ => rfl
  cfg := rfl
  resetDone := rfl
  wf := id
  bit5 h := by rw [State.setP_p, getLsbD_setBit, if_neg hk.symm, h]

/-- A write of P as a whole sets bit 5 (R26). -/
theorem writeP_within (v : Byte) :
    Within [.bit 0, .bit 1, .bit 2, .bit 3, .bit 4, .bit 5, .bit 6, .bit 7] s (s.writeP v) where
  same f hf := by
    cases f with
    | bit j =>
      have hj : 8 ≤ j := by
        simp only [List.mem_cons, StatePart.bit.injEq, List.not_mem_nil] at hf
        omega
      simp [StatePart.Same, BitVec.getLsbD_of_ge _ _ hj]
    | _ => rfl
  cfg := rfl
  resetDone := rfl
  wf := id
  bit5 _ := by simp

theorem setNZ_within (v : Byte) : Within [.bit 1, .bit 7] s (s.setNZ v) :=
  (setBit_within s (by decide) _).trans (setBit_within _ (by decide) _)

theorem setSumFlags_within (sum : Sum) : Within [.bit 0, .bit 6, .bit 1, .bit 7] s (s.setSumFlags sum) :=
  ((setBit_within s (by decide) _).trans (setBit_within _ (by decide) _)).trans (setNZ_within _ _)

theorem compare_within (reg m : Byte) : Within [.bit 0, .bit 1, .bit 7] s (s.compare reg m) :=
  (setBit_within s (by decide) _).trans (setNZ_within _ _)

theorem setShiftFlags_within (sh : Shifted) : Within [.bit 0, .bit 1, .bit 7] s (s.setShiftFlags sh) :=
  (setBit_within s (by decide) _).trans (setNZ_within _ _)

end

/-! ### Bus, operands, stack, trap -/

theorem ReadsOnly.within {s t : State} (h : ReadsOnly s t) : Within [] s t where
  same f _ := by
    cases f with
    | a => exact h.a
    | x => exact h.x
    | y => exact h.y
    | sp => exact h.sp
    | pc => exact h.pc
    | mem => exact h.mem
    | diag => exact h.diag
    | bit k => exact congrArg (BitVec.getLsbD · k) h.p
  cfg := h.cfg
  resetDone := h.resetDone
  wf hw := h.mem ▸ hw
  bit5 hp := h.p ▸ hp

theorem WritesOnly.within {l : List Nat} {s t : State} (h : WritesOnly l s t) (hsp : t.sp = s.sp) : Within [.mem] s t where
  same f hf := by
    cases f with
    | a => exact h.a
    | x => exact h.x
    | y => exact h.y
    | sp => exact hsp
    | pc => exact h.pc
    | mem => simp at hf
    | diag => exact h.diag
    | bit k => exact congrArg (BitVec.getLsbD · k) h.p
  cfg := h.cfg
  resetDone := h.resetDone
  wf := h.wf
  bit5 hp := h.p ▸ hp

section
variable (s : State)

theorem resolve_within (o : Operand) (penalty : Bool) : Within [] s (resolve o penalty s).st :=
  (resolve_readsOnly o penalty s).within

theorem readOperand_within (o : Operand) : Within [] s (readOperand o s).st := (readOperand_readsOnly o s).within

theorem storeOperand_within (o : Operand) (v : Byte) : Within [.mem] s (storeOperand o v s) :=
  (storeOperand_writesOnly o v s).within (storeOperand_sp o v s)

theorem modifyOperand_within (o : Operand) (f : Byte → Byte) : Within [.mem] s (modifyOperand o f s).st :=
  (modifyOperand_writesOnly o f s).within (modifyOperand_sp o f s)

theorem push_within (v : Byte) : Within [.mem, .sp] s (push s v) :=
  ((busWrite_writesOnly s s.stackAddr v).within rfl).trans (setSp_within _ _)

theorem push16_within (w : Addr) : Within [.mem, .sp, .mem, .sp] s (push16 s w) :=
  (push_within s _).trans (push_within _ _)

theorem pop_within : Within [.sp] s (pop s).st := (setSp_within s _).trans (pop_readsOnly s).within

theorem pop16_within : Within [.sp] s (pop16 s).st := (setSp_within s _).trans (pop16_readsOnly s).within

theorem enterTrap_within (ret vector : Addr) :
    Within [.mem, .sp, .mem, .sp, .mem, .sp, .bit 2, .pc] s (enterTrap s ret vector) :=
  (((push16_within s ret).trans (push_within _ _)).trans (setBit_within _ (by decide) true)).trans
    ((read16_readsOnly _ vector).within.trans (setPc_within _ _))

theorem returnFromTrap_within :
    Within [.sp, .bit 0, .bit 1, .bit 2, .bit 3, .bit 4, .bit 5, .bit 6, .bit 7, .sp, .pc] s (returnFromTrap s) :=
  ((pop_within s).trans (writeP_within _ _)).trans ((pop16_within _).trans (setPc_within _ _))

end

/-! ### The parts each instruction writes -/

/-- A shift writes A or memory, and C, Z and N (R321). -/
def shiftWrites : ShiftOp → List StatePart
  | .acc => [.a, .bit 0, .bit 1, .bit 7]
  | _ => [.mem, .bit 0, .bit 1, .bit 7]

/-- The parts an instruction writes, in the order it writes them. -/
def writes : Instr → List StatePart
  | .lda _ | .txa | .tya | .and _ | .ora _ | .eor _ => [.a, .bit 1, .bit 7]
  | .ldx _ | .tax | .tsx | .inx | .dex => [.x, .bit 1, .bit 7]
  | .ldy _ | .tay | .iny | .dey => [.y, .bit 1, .bit 7]
  | .adc _ | .sbc _ => [.a, .bit 0, .bit 6, .bit 1, .bit 7]
  | .cmp _ | .cpx _ | .cpy _ => [.bit 0, .bit 1, .bit 7]
  | .bit _ => [.bit 1, .bit 7, .bit 6]
  | .sta _ | .stx _ | .sty _ => [.mem]
  | .asl o | .lsr o | .rol o | .ror o => shiftWrites o
  | .inc _ | .dec _ => [.mem, .bit 1, .bit 7]
  | .txs => [.sp]
  | .pha | .php => [.mem, .sp]
  | .pla => [.sp, .a, .bit 1, .bit 7]
  | .plp => [.sp, .bit 0, .bit 1, .bit 2, .bit 3, .bit 4, .bit 5, .bit 6, .bit 7]
  | .jmp _ | .bpl _ | .bmi _ | .bvc _ | .bvs _ | .bcc _ | .bcs _ | .bne _ | .beq _ => [.pc]
  | .jsr _ => [.mem, .sp, .mem, .sp, .pc]
  | .rts => [.sp, .pc]
  | .rti => [.sp, .bit 0, .bit 1, .bit 2, .bit 3, .bit 4, .bit 5, .bit 6, .bit 7, .sp, .pc]
  | .brk => [.mem, .sp, .mem, .sp, .mem, .sp, .bit 2, .pc]
  | .clc | .sec => [.bit 0]
  | .cli | .sei => [.bit 2]
  | .cld | .sed => [.bit 3]
  | .clv => [.bit 6]
  | .nop => []
  | .undef _ => [.diag]

theorem shiftOperand_within (o : ShiftOp) (unit : Byte → Shifted) (s : State) :
    Within (shiftWrites o) s (shiftOperand o unit s) := by
  cases o with
  | acc => exact (setA_within s _).trans (setShiftFlags_within _ _)
  | zp z => exact (modifyOperand_within s (.zp z) _).trans (setShiftFlags_within _ _)
  | zpx z => exact (modifyOperand_within s (.zpx z) _).trans (setShiftFlags_within _ _)
  | abs a => exact (modifyOperand_within s (.abs a) _).trans (setShiftFlags_within _ _)
  | abx a => exact (modifyOperand_within s (.abx a) _).trans (setShiftFlags_within _ _)

/-- A step's count is no part of `Within`. -/
theorem Within.setCycles {l : List StatePart} {s t : State} (h : Within l s t) (n : Option Nat) :
    Within l s (t.setCycles n) := by
  simpa using h.trans (setCycles_within t n)

/-- A branch writes PC at most (R393). -/
theorem branch_within (taken : Bool) (d : Byte) (s : State) :
    ∃ t, branch taken d s = .next t ∧ Within [.pc] s t := by
  cases taken with
  | true => exact ⟨_, rfl, (setPc_within s _).setCycles _⟩
  | false =>
    have h := setPc_within s s.pc
    exact ⟨_, rfl, h.setCycles _⟩

/-- Every instruction completes and writes its own parts only. -/
theorem exec_within (i : Instr) (s : State) : Runs i s (Within (writes i) s) := by
  cases i with
  | lda o | and o | ora o | eor o =>
    exact ⟨_, rfl, (((readOperand_within s _).trans (setA_within _ _)).trans (setNZ_within _ _)).setCycles _⟩
  | ldx o =>
    exact ⟨_, rfl, (((readOperand_within s _).trans (setX_within _ _)).trans (setNZ_within _ _)).setCycles _⟩
  | ldy o =>
    exact ⟨_, rfl, (((readOperand_within s _).trans (setY_within _ _)).trans (setNZ_within _ _)).setCycles _⟩
  | sta o | stx o | sty o => exact ⟨_, rfl, (storeOperand_within s _ _).setCycles _⟩
  | tax | tsx | inx | dex => exact ⟨_, rfl, ((setX_within s _).trans (setNZ_within _ _)).setCycles _⟩
  | tay | iny | dey => exact ⟨_, rfl, ((setY_within s _).trans (setNZ_within _ _)).setCycles _⟩
  | txa | tya => exact ⟨_, rfl, ((setA_within s _).trans (setNZ_within _ _)).setCycles _⟩
  | txs => exact ⟨_, rfl, (setSp_within s _).setCycles _⟩
  | adc o | sbc o =>
    exact ⟨_, rfl, (((readOperand_within s _).trans (setA_within _ _)).trans (setSumFlags_within _ _)).setCycles _⟩
  | cmp o | cpx o | cpy o => exact ⟨_, rfl, ((readOperand_within s _).trans (compare_within _ _ _)).setCycles _⟩
  | bit o =>
    exact ⟨_, rfl, ((((readOperand_within s _).trans (setBit_within _ (by decide) _)).trans
      (setBit_within _ (by decide) _)).trans (setBit_within _ (by decide) _)).setCycles _⟩
  | asl o | lsr o | rol o | ror o => exact ⟨_, rfl, (shiftOperand_within o _ s).setCycles _⟩
  | inc o | dec o => exact ⟨_, rfl, ((modifyOperand_within s _ _).trans (setNZ_within _ _)).setCycles _⟩
  | pha | php => exact ⟨_, rfl, (push_within s _).setCycles _⟩
  | pla => exact ⟨_, rfl, (((pop_within s).trans (setA_within _ _)).trans (setNZ_within _ _)).setCycles _⟩
  | plp => exact ⟨_, rfl, ((pop_within s).trans (writeP_within _ _)).setCycles _⟩
  | jmp o => exact ⟨_, rfl, ((resolve_within s _ _).trans (setPc_within _ _)).setCycles _⟩
  | jsr a => exact ⟨_, rfl, ((push16_within s _).trans (setPc_within _ _)).setCycles _⟩
  | rts => exact ⟨_, rfl, ((pop16_within s).trans (setPc_within _ _)).setCycles _⟩
  | rti => exact ⟨_, rfl, (returnFromTrap_within s).setCycles _⟩
  | brk => exact ⟨_, rfl, (enterTrap_within s _ _).setCycles _⟩
  | bpl d | bmi d | bvc d | bvs d | bcc d | bcs d | bne d | beq d => exact branch_within _ d s
  | clc | sec | cli | sei | cld | sed | clv => exact ⟨_, rfl, (setBit_within s (by decide) _).setCycles _⟩
  | nop => exact ⟨_, rfl, setCycles_within s _⟩
  | undef op => exact ⟨_, rfl, (setDiag_within s _).setCycles _⟩

/-- A shift writes A in the accumulator mode only, and memory in the others. -/
@[simp] theorem mem_shiftWrites {o : ShiftOp} {f : StatePart} :
    f ∈ shiftWrites o ↔
      (f = .a ∧ o = .acc) ∨ (f = .mem ∧ o ≠ .acc) ∨ f = .bit 0 ∨ f = .bit 1 ∨ f = .bit 7 := by
  cases o <;> simp [shiftWrites]

section
variable {i : Instr}

theorem a_notMem_writes (hm : i.mnemonic ∉ [Mnemonic.lda, .txa, .tya, .pla, .adc, .sbc, .and, .ora, .eor])
    (hmode : i.mode ≠ .acc) : .a ∉ writes i := by
  cases i with
  | lda o | adc o | sbc o | and o | ora o | eor o | txa | tya | pla => simp [Instr.mnemonic] at hm
  | asl o | lsr o | rol o | ror o =>
    have ho : o ≠ .acc := by rintro rfl; exact hmode rfl
    simp [writes, ho]
  | _ => simp [writes]

theorem x_notMem_writes (hm : i.mnemonic ∉ [Mnemonic.ldx, .tax, .tsx, .inx, .dex]) : .x ∉ writes i := by
  cases i with
  | ldx o | tax | tsx | inx | dex => simp [Instr.mnemonic] at hm
  | _ => simp [writes]

theorem y_notMem_writes (hm : i.mnemonic ∉ [Mnemonic.ldy, .tay, .iny, .dey]) : .y ∉ writes i := by
  cases i with
  | ldy o | tay | iny | dey => simp [Instr.mnemonic] at hm
  | _ => simp [writes]

theorem sp_notMem_writes (hm : i.mnemonic ∉ [Mnemonic.txs, .pha, .php, .pla, .plp, .jsr, .rts, .brk, .rti]) :
    .sp ∉ writes i := by
  cases i with
  | txs | pha | php | pla | plp | jsr a | rts | brk | rti => simp [Instr.mnemonic] at hm
  | _ => simp [writes]

theorem pc_notMem_writes (hmode : i.mode ≠ .rel) (hm : i.mnemonic ∉ [Mnemonic.jmp, .jsr, .rts, .rti, .brk]) :
    .pc ∉ writes i := by
  cases i with
  | bpl d | bmi d | bvc d | bvs d | bcc d | bcs d | bne d | beq d => exact absurd rfl hmode
  | jmp o | jsr a | rts | rti | brk => simp [Instr.mnemonic] at hm
  | _ => simp [writes]

theorem diag_notMem_writes (hm : i.mnemonic ≠ .undef) : .diag ∉ writes i := by
  cases i with
  | undef op => exact absurd rfl hm
  | _ => simp [writes]

theorem carry_notMem_writes
    (hm : i.mnemonic ∉ [Mnemonic.adc, .sbc, .cmp, .cpx, .cpy, .asl, .lsr, .rol, .ror, .sec, .clc, .plp, .rti]) :
    .bit 0 ∉ writes i := by
  cases i with
  | adc o | sbc o | cmp o | cpx o | cpy o | asl o | lsr o | rol o | ror o | sec | clc | plp | rti =>
    simp [Instr.mnemonic] at hm
  | _ => simp [writes]

theorem overflow_notMem_writes (hm : i.mnemonic ∉ [Mnemonic.adc, .sbc, .bit, .clv, .plp, .rti]) :
    .bit 6 ∉ writes i := by
  cases i with
  | adc o | sbc o | bit o | clv | plp | rti => simp [Instr.mnemonic] at hm
  | _ => simp [writes]

theorem interrupt_notMem_writes (hm : i.mnemonic ∉ [Mnemonic.sei, .cli, .brk, .plp, .rti]) : .bit 2 ∉ writes i := by
  cases i with
  | sei | cli | brk | plp | rti => simp [Instr.mnemonic] at hm
  | _ => simp [writes]

theorem decimal_notMem_writes (hm : i.mnemonic ∉ [Mnemonic.sed, .cld, .plp, .rti]) : .bit 3 ∉ writes i := by
  cases i with
  | sed | cld | plp | rti => simp [Instr.mnemonic] at hm
  | _ => simp [writes]

/-- B and the unused bit are written with P as a whole only. -/
theorem break_unused_notMem_writes (hm : i.mnemonic ∉ [Mnemonic.plp, .rti]) :
    .bit 4 ∉ writes i ∧ .bit 5 ∉ writes i := by
  cases i with
  | plp | rti => simp [Instr.mnemonic] at hm
  | _ => simp [writes]

theorem zero_negative_notMem_writes
    (hm : i.mnemonic ∈ [Mnemonic.sta, .stx, .sty, .txs, .pha, .php, .jmp, .jsr, .rts, .brk, .bpl, .bmi, .bvc, .bvs, .bcc,
      .bcs, .bne, .beq, .clc, .sec, .cli, .sei, .cld, .sed, .clv, .nop, .undef]) :
    .bit 1 ∉ writes i ∧ .bit 7 ∉ writes i := by
  cases i with
  | lda o | ldx o | ldy o | tax | tay | txa | tya | tsx | adc o | sbc o | cmp o | cpx o | cpy o | and o | ora o | eor o
  | bit o | asl o | lsr o | rol o | ror o | inc o | dec o | inx | iny | dex | dey | pla | plp | rti =>
    simp [Instr.mnemonic] at hm
  | _ => simp [writes]

end

end Sys2Proof.Machine
end

section
/-! The fetch of a step: how many bytes, which instruction, and on the default path which bytes and transactions. -/

namespace Sys2Proof.Machine

open Sys2Proof.Claims

/-- The state after `n` fetches at PC. -/
def fetchN : Nat → State → State
  | 0, s => s
  | n + 1, s => (fetch8 (fetchN n s)).st

/-- The byte that the fetch after `n` others answers. -/
def fetchByte (n : Nat) (s : State) : Byte := (fetch8 (fetchN n s)).value

theorem fetch8_readsOnly (s : State) : ReadsOnly (s.setPc (s.pc + 1)) (fetch8 s).st :=
  ⟨rfl, rfl, rfl, rfl, rfl, rfl, rfl, rfl, rfl, rfl, rfl⟩

/-- Fetches move PC on by their number and only read (R141). -/
theorem fetchN_readsOnly (n : Nat) (s : State) : ReadsOnly (s.setPc (s.pc + BitVec.ofNat 16 n)) (fetchN n s) := by
  induction n with
  | zero => exact ⟨rfl, rfl, rfl, rfl, (BitVec.add_zero s.pc).symm, rfl, rfl, rfl, rfl, rfl, rfl⟩
  | succ n ih =>
    have hpc : (fetchN n s).pc + 1 = s.pc + BitVec.ofNat 16 (n + 1) := by
      rw [ih.pc, BitVec.ofNat_add, ← BitVec.add_assoc]
      rfl
    exact ⟨ih.a, ih.x, ih.y, ih.sp, hpc, ih.p, ih.mem, ih.cfg, ih.diag, ih.cycles, ih.resetDone⟩

theorem length_encode_decodeOp (op b1 b2 : Byte) : (encode (decodeOp op b1 b2)).length = 1 + operandCount op := by
  have h := operandCount_le op
  rw [encode_decodeOp]
  interval_cases operandCount op <;> rfl

/-- What the fetch of an instruction can do (R45, R101): the opcode byte alone says how many bytes follow. -/
theorem fetchInstr_cases (s : State) :
    (operandCount (fetchByte 0 s) = 0 ∧ fetchInstr s = ⟨decodeOp (fetchByte 0 s) 0 0, fetchN 1 s⟩) ∨
      (operandCount (fetchByte 0 s) = 1 ∧
        fetchInstr s = ⟨decodeOp (fetchByte 0 s) (fetchByte 1 s) 0, fetchN 2 s⟩) ∨
      (operandCount (fetchByte 0 s) = 2 ∧
        fetchInstr s = ⟨decodeOp (fetchByte 0 s) (fetchByte 1 s) (fetchByte 2 s), fetchN 3 s⟩) := by
  have h := operandCount_le (fetchByte 0 s)
  generalize hn : operandCount (fetchByte 0 s) = n at h
  change operandCount (fetch8 s).value = n at hn
  interval_cases n
  · exact .inl ⟨rfl, by simp only [fetchInstr, hn]; rfl⟩
  · exact .inr (.inl ⟨rfl, by simp only [fetchInstr, hn]; rfl⟩)
  · exact .inr (.inr ⟨rfl, by simp only [fetchInstr, hn]; rfl⟩)

/-- The step fetches as many bytes as the instruction it finds is long (R101, R106). -/
theorem fetchInstr_st (s : State) : (fetchInstr s).st = fetchN (encode (fetchInstr s).instr).length s := by
  obtain ⟨hn, h⟩ | ⟨hn, h⟩ | ⟨hn, h⟩ := fetchInstr_cases s <;> rw [h, length_encode_decodeOp, hn]

/-- The step finds the instruction that the decoder reads from the bytes at PC (R45). -/
theorem fetchInstr_instr {s : State} {i : Instr} {rest : List Byte}
    (h : decode [fetchByte 0 s, fetchByte 1 s, fetchByte 2 s] = .ok (i, rest)) : (fetchInstr s).instr = i := by
  obtain ⟨hn, hf⟩ | ⟨hn, hf⟩ | ⟨hn, hf⟩ := fetchInstr_cases s <;>
    · rw [hf]
      simp only [decode, hn, Except.ok.injEq, Prod.mk.injEq] at h
      exact h.1

theorem step_eq {s : State} (h : s.resetDone = true) :
    step s = exec (fetchInstr (beginStep s)).instr
      (fetchN (encode (fetchInstr (beginStep s)).instr).length (beginStep s)) := by
  rw [← fetchInstr_st, step, if_pos h]

/-- A step runs the instruction decoded from the three bytes at PC, at the state after the fetch of its own bytes. -/
theorem step_of_decode {s : State} {i : Instr} {rest : List Byte} (h : s.resetDone = true)
    (hd : decode [fetchByte 0 (beginStep s), fetchByte 1 (beginStep s), fetchByte 2 (beginStep s)] = .ok (i, rest)) :
    step s = exec i (fetchN (encode i).length (beginStep s)) := by
  rw [step_eq h, fetchInstr_instr hd]

/-- An instruction is one to three bytes long (R100). -/
theorem length_encode_mem (i : Instr) : (encode i).length = 1 ∨ (encode i).length = 2 ∨ (encode i).length = 3 := by
  unfold encode
  cases i.operand with
  | none => exact .inl rfl
  | some o => cases o <;> simp [Operand.bytes]

/-! ### The fetch on the default path -/

/-- A fetch off IO_ADDRS draws no answer of the host (R63). -/
theorem fetch8_default {s : State} (h : s.intercepted s.pc = false) :
    (fetch8 s).st = (s.setPc (s.pc + 1)).setBus (s.bus ++ [.read s.pc (s.mem.read s.pc.toNat)]) := by
  rw [← answer_default h]
  simp only [fetch8, busRead, State.drawsAfter, h]
  rfl

theorem fetchN_intercepted (n : Nat) (s : State) (a : Addr) : (fetchN n s).intercepted a = s.intercepted a :=
  intercepted_congr (fetchN_readsOnly n s).cfg a

theorem fetchByte_default {n : Nat} {s : State} (h : s.intercepted (s.pc + BitVec.ofNat 16 n) = false) :
    fetchByte n s = s.mem.read (s.pc + BitVec.ofNat 16 n).toNat := by
  have hpc : (fetchN n s).pc = s.pc + BitVec.ofNat 16 n := (fetchN_readsOnly n s).pc
  have hmem : (fetchN n s).mem = s.mem := (fetchN_readsOnly n s).mem
  rw [fetchByte, fetch8_value, hpc, answer_default (by rw [fetchN_intercepted, h]), hmem]

/-- Fetches off IO_ADDRS move PC on and put memory's bytes on the bus in ascending order (R141, R158). -/
theorem fetchN_default {n : Nat} {s : State} (h : ∀ k < n, s.intercepted (s.pc + BitVec.ofNat 16 k) = false) :
    fetchN n s = (s.setPc (s.pc + BitVec.ofNat 16 n)).setBus (s.bus ++ (List.range n).map fun k =>
      .read (s.pc + BitVec.ofNat 16 k) (s.mem.read (s.pc + BitVec.ofNat 16 k).toNat)) := by
  induction n with
  | zero => simp [fetchN, State.setPc, State.setBus]
  | succ n ih =>
    have hpc : (fetchN n s).pc = s.pc + BitVec.ofNat 16 n := (fetchN_readsOnly n s).pc
    have hn : (fetchN n s).intercepted (fetchN n s).pc = false := by
      rw [fetchN_intercepted, hpc]
      exact h n (by omega)
    rw [fetchN, fetch8_default hn, hpc, ih fun k hk => h k (by omega), List.range_succ, List.map_append,
      ← List.append_assoc, BitVec.ofNat_add, ← BitVec.add_assoc]
    rfl

/-! ### A placed word -/

/-- Three bytes stored from `a` upward are read back at the three addresses, and no other byte changes. -/
theorem storeBytes_three (b0 b1 b2 : Byte) (a : Addr) (m : Memory) :
    (storeBytes [b0, b1, b2] a m).read a.toNat = b0 ∧ (storeBytes [b0, b1, b2] a m).read (a + 1).toNat = b1 ∧
      (storeBytes [b0, b1, b2] a m).read (a + 2).toNat = b2 ∧
      ∀ k, k ∉ [a.toNat, (a + 1).toNat, (a + 2).toNat] → (storeBytes [b0, b1, b2] a m).read k = m.read k := by
  have h2 : a + 1 + 1 = a + 2 := by rw [BitVec.add_assoc]; rfl
  have h01 : a.toNat ≠ (a + 1).toNat := by bv_omega
  have h02 : a.toNat ≠ (a + 2).toNat := by bv_omega
  have h12 : (a + 1).toNat ≠ (a + 2).toNat := by bv_omega
  simp only [storeBytes, h2, Memory.read_write, h01, h02, h12, if_true, if_false, true_and]
  intro k hk
  simp only [List.mem_cons, List.not_mem_nil, or_false, not_or] at hk
  obtain ⟨hk0, hk1, hk2⟩ := hk
  simp only [hk0, hk1, hk2, if_false]

theorem decodeTableWord_eq_some {nbits w : Nat} {i : Instr} (h : decodeTableWord nbits w = some i) :
    ∃ rest, decode (tableWordBytes nbits w) = .ok (i, rest) := by
  unfold decodeTableWord at h
  split at h
  · simp at h
  · split at h
    · rename_i j r hd
      exact ⟨r, by rw [hd, Option.some.inj h]⟩
    · simp at h

/-- The three addresses of a placed word are not intercepted. -/
theorem withFetchWord_intercepted (s : State) (nbits w : Nat) {a : Addr} (h : a ∈ [s.pc, s.pc + 1, s.pc + 2]) :
    (s.withFetchWord nbits w).intercepted a = false := by
  refine Bool.eq_false_iff.mpr fun hc => ?_
  obtain ⟨-, hnot⟩ := List.mem_filter.mp (List.contains_iff_mem.mp hc)
  rw [List.contains_iff_mem.mpr h] at hnot
  exact Bool.false_ne_true hnot

/-- Memory holds a placed word's bytes at PC, and every other byte as before. -/
theorem withFetchWord_mem (s : State) (nbits w : Nat) :
    let m := (s.withFetchWord nbits w).mem
    [m.read (s.pc + 0).toNat, m.read (s.pc + 1).toNat, m.read (s.pc + 2).toNat] = tableWordBytes nbits w ∧
      ∀ k, k ∉ [s.pc.toNat, (s.pc + 1).toNat, (s.pc + 2).toNat] → m.read k = s.mem.read k := by
  have hm : (s.withFetchWord nbits w).mem = storeBytes (tableWordBytes nbits w) s.pc s.mem := rfl
  dsimp only
  rw [hm, show s.pc + 0 = s.pc from BitVec.add_zero s.pc]
  obtain ⟨r0, r1, r2, hother⟩ := storeBytes_three (BitVec.ofNat 8 (w % 2 ^ nbits))
    (BitVec.ofNat 8 (w % 2 ^ nbits / 256)) (BitVec.ofNat 8 (w % 2 ^ nbits / 65536)) s.pc s.mem
  exact ⟨by rw [tableWordBytes, r0, r1, r2], hother⟩

end Sys2Proof.Machine
end

section
/-! Steps: the invariant, PC, and the instruction a step runs. -/

namespace Sys2Proof.Machine

open Sys2Proof.Claims

/-- Settles O10: the fetch changes neither memory nor P, and every instruction keeps the invariant. -/
theorem stepKeepsInv : Obligations.StepKeepsInv := by
  intro s t hs hst
  cases hr : s.resetDone with
  | false => simp [step, hr] at hst
  | true =>
    have hf := (fetchN_readsOnly (encode (fetchInstr (beginStep s)).instr).length (beginStep s)).within.inv hs
    obtain ⟨u, hu, hw⟩ := exec_within (fetchInstr (beginStep s)).instr _
    rw [step_eq hr, hu, Host.Outcome.next.injEq] at hst
    exact hst ▸ hw.inv hf

/-- Settles O7: on the default path the bytes fetched and the transactions are memory's. -/
theorem fetchOnTheDefaultPath : Obligations.FetchOnTheDefaultPath := by
  intro s i rest at_ hr hio hd
  have hb {n : Nat} (hn : n < 3) : (beginStep s).intercepted ((beginStep s).pc + BitVec.ofNat 16 n) = false :=
    hio (BitVec.ofNat 16 n) (by rw [BitVec.toNat_ofNat]; omega)
  have hstep : step s = exec i (fetchN (encode i).length (beginStep s)) := by
    apply step_of_decode hr (rest := rest)
    rw [fetchByte_default (hb (by decide)), fetchByte_default (hb (by decide)), fetchByte_default (hb (by decide))]
    exact hd
  rw [hstep]
  obtain h | h | h := length_encode_mem i <;>
    · rw [h, fetchN_default fun k hk => hb (by omega)]
      rfl

/-- Settles O13: the fetch leaves PC past the instruction, and the instruction does not write PC. -/
theorem plainStepsAdvancePc : Obligations.PlainStepsAdvancePc := by
  intro s i hr hrel hm
  have hpc := pc_notMem_writes hrel hm
  obtain ⟨t, ht, hw⟩ := exec_within i (fetchN (encode i).length (beginStep s))
  exact ⟨t, (step_eq hr).trans ht, Eq.trans (hw.same _ hpc) (fetchN_readsOnly _ (beginStep s)).pc⟩

/-- Settles O17: the placed bytes are memory's on the default path, so the step is the one of `fetchOnTheDefaultPath`. -/
theorem placedInstructionRuns : Obligations.PlacedInstructionRuns := by
  intro s nbits w i hi
  obtain ⟨rest, hd⟩ := decodeTableWord_eq_some hi
  obtain ⟨hbytes, hother⟩ := withFetchWord_mem s nbits w
  have hio (k : Addr) (hk : k.toNat < 3) : (s.withFetchWord nbits w).intercepted (s.pc + k) = false := by
    have hk' : k = 0 ∨ k = 1 ∨ k = 2 := by bv_omega
    apply withFetchWord_intercepted
    obtain rfl | rfl | rfl := hk' <;> simp
  have hstep := fetchOnTheDefaultPath (s.withFetchWord nbits w) i rest rfl hio ((congrArg decode hbytes).trans hd)
  exact ⟨_, hstep, rfl, rfl, hother⟩

/-- Settles O6: the state after the fetch is named by the instruction's length. -/
theorem stepRunsTheDecodedInstruction : Obligations.StepRunsTheDecodedInstruction := by
  intro s i rest f0 f1 f2 hr hd
  rw [step_of_decode hr hd]
  obtain h | h | h := length_encode_mem i <;> rw [h] <;> rfl

end Sys2Proof.Machine
end

section
/-! Who may write what: each statement reads off the parts that `exec_within` leaves alone. -/

namespace Sys2Proof.Machine

open Sys2Proof.Claims

/-- Settles O15: of all instructions only an undefined opcode writes DIAG, and its event is the one `execUndef` appends. -/
theorem diagOnlyFromUndefined : Obligations.DiagOnlyFromUndefined := by
  intro i s
  obtain ⟨t, ht, hw⟩ := exec_within i s
  refine ⟨t, ht, ?_, fun h => hw.same _ (diag_notMem_writes h), hw.cfg, hw.resetDone⟩
  rintro op rfl
  cases ht
  rfl

/-- Settles O18: each register is outside what the instructions not listed for it write. -/
theorem writersOfTheRegisters : Obligations.WritersOfTheRegisters := by
  intro i s
  obtain ⟨t, ht, hw⟩ := exec_within i s
  exact ⟨t, ht, fun hm hmode => hw.same _ (a_notMem_writes hm hmode), fun hm => hw.same _ (x_notMem_writes hm),
    fun hm => hw.same _ (y_notMem_writes hm), fun hm => hw.same _ (sp_notMem_writes hm),
    fun hmode hm => hw.same _ (pc_notMem_writes hmode hm)⟩

/-- Settles O19: each flag is outside what the instructions not listed for it write. -/
theorem writersOfTheFlags : Obligations.WritersOfTheFlags := by
  intro i s
  obtain ⟨t, ht, hw⟩ := exec_within i s
  exact ⟨t, ht, fun hm => hw.same _ (carry_notMem_writes hm), fun hm => hw.same _ (overflow_notMem_writes hm),
    fun hm => hw.same _ (interrupt_notMem_writes hm), fun hm => hw.same _ (decimal_notMem_writes hm), fun hm =>
      let ⟨h4, h5⟩ := break_unused_notMem_writes hm
      ⟨hw.same _ h4, hw.same _ h5⟩⟩

/-- Settles O20: Z and N are outside what the 27 listed instructions write. -/
theorem writersOfZeroAndNegative : Obligations.WritersOfZeroAndNegative := by
  intro i s hm
  obtain ⟨t, ht, hw⟩ := exec_within i s
  obtain ⟨h1, h7⟩ := zero_negative_notMem_writes hm
  exact ⟨t, ht, hw.same _ h1, hw.same _ h7⟩

end Sys2Proof.Machine
end

section
/-! Runs with another bit in P: operations that do not look at P pass the bit through, and so do the flag writes of other
bits. -/

namespace Sys2Proof.Machine

open Sys2Proof.Claims

theorem setBit_comm (v : Byte) {i k : Nat} (h : i ≠ k) (b c : Bool) :
    setBit (setBit v k b) i c = setBit (setBit v i c) k b := by
  apply BitVec.eq_of_getLsbD_eq
  intro j hj
  simp only [getLsbD_setBit]
  by_cases hi : j = i
  · simp [hi, h]
  · simp [hi]

/-! ### Operations that do not look at P -/

section
variable (k : Nat) (b : Bool) (s : State)

theorem busRead_withBit (a : Addr) :
    busRead (withBit k b s) a = ⟨(busRead s a).value, withBit k b (busRead s a).st⟩ := rfl

theorem busWrite_withBit (a : Addr) (v : Byte) :
    busWrite (withBit k b s) a v = withBit k b (busWrite s a v) := rfl

theorem read16_withBit (a : Addr) :
    read16 (withBit k b s) a = ⟨(read16 s a).value, withBit k b (read16 s a).st⟩ := by
  simp only [read16, busRead_withBit]

theorem push_withBit (v : Byte) : push (withBit k b s) v = withBit k b (push s v) := rfl

theorem pop_withBit : pop (withBit k b s) = ⟨(pop s).value, withBit k b (pop s).st⟩ := rfl

theorem push16_withBit (w : Addr) : push16 (withBit k b s) w = withBit k b (push16 s w) := by
  simp only [push16, push_withBit]

theorem pop16_withBit : pop16 (withBit k b s) = ⟨(pop16 s).value, withBit k b (pop16 s).st⟩ := by
  simp only [pop16, pop_withBit]

theorem readZpPointer_withBit (p : Byte) :
    readZpPointer (withBit k b s) p = ⟨(readZpPointer s p).value, withBit k b (readZpPointer s p).st⟩ := by
  simp only [readZpPointer, busRead_withBit]

theorem readPagePointer_withBit (a : Addr) :
    readPagePointer (withBit k b s) a = ⟨(readPagePointer s a).value, withBit k b (readPagePointer s a).st⟩ := by
  simp only [readPagePointer, busRead_withBit]

theorem resolve_withBit (o : Operand) (penalty : Bool) :
    resolve o penalty (withBit k b s) =
      ⟨(resolve o penalty s).ea, (resolve o penalty s).extra, withBit k b (resolve o penalty s).st⟩ := by
  cases o with
  | ind a => simp only [resolve, readPagePointer_withBit]
  | izx z =>
    have hx : (withBit k b s).x = s.x := rfl
    simp only [resolve, hx, readZpPointer_withBit]
  | izy z =>
    have hy (t : State) : (withBit k b t).y = t.y := rfl
    simp only [resolve, readZpPointer_withBit, hy, indexed]
  | _ => rfl

theorem readOperand_withBit (o : Operand) :
    readOperand o (withBit k b s) =
      ⟨(readOperand o s).value, (readOperand o s).extra, withBit k b (readOperand o s).st⟩ := by
  cases o <;> simp only [readOperand, resolve_withBit, busRead_withBit]

theorem storeOperand_withBit (o : Operand) (v : Byte) :
    storeOperand o v (withBit k b s) = withBit k b (storeOperand o v s) := by
  simp only [storeOperand, resolve_withBit, busWrite_withBit]

theorem modifyOperand_withBit (o : Operand) (f : Byte → Byte) :
    modifyOperand o f (withBit k b s) = ⟨(modifyOperand o f s).value, withBit k b (modifyOperand o f s).st⟩ := by
  simp only [modifyOperand, resolve_withBit, busRead_withBit, busWrite_withBit]

end

/-! ### Fields and flags -/

section
variable {k : Nat} (b : Bool) (s : State)

theorem withBit_a : (withBit k b s).a = s.a := rfl
theorem withBit_x : (withBit k b s).x = s.x := rfl
theorem withBit_y : (withBit k b s).y = s.y := rfl
theorem withBit_sp : (withBit k b s).sp = s.sp := rfl
theorem withBit_pc : (withBit k b s).pc = s.pc := rfl
theorem withBit_cfg : (withBit k b s).cfg = s.cfg := rfl

theorem setA_withBit (v : Byte) : (withBit k b s).setA v = withBit k b (s.setA v) := rfl
theorem setX_withBit (v : Byte) : (withBit k b s).setX v = withBit k b (s.setX v) := rfl
theorem setY_withBit (v : Byte) : (withBit k b s).setY v = withBit k b (s.setY v) := rfl
theorem setPc_withBit (v : Addr) : (withBit k b s).setPc v = withBit k b (s.setPc v) := rfl
theorem setCycles_withBit (n : Option Nat) : (withBit k b s).setCycles n = withBit k b (s.setCycles n) := rfl

/-- A write of P as a whole forgets the bit. -/
theorem writeP_withBit (v : Byte) : (withBit k b s).writeP v = s.writeP v := rfl

/-- Each bit but `k` reads as before. -/
theorem getLsbD_withBit {j : Nat} (h : j ≠ k) : (withBit k b s).p.getLsbD j = s.p.getLsbD j := by
  simp [withBit, h]

theorem setP_setBit_withBit {j : Nat} (h : j ≠ k) (c : Bool) :
    (withBit k b s).setP (setBit (withBit k b s).p j c) = withBit k b (s.setP (setBit s.p j c)) := by
  simp [withBit, setBit_comm s.p h]

theorem flagC_withBit (h : 0 ≠ k) : (withBit k b s).flagC = s.flagC := getLsbD_withBit b s h
theorem flagZ_withBit (h : 1 ≠ k) : (withBit k b s).flagZ = s.flagZ := getLsbD_withBit b s h
theorem flagV_withBit (h : 6 ≠ k) : (withBit k b s).flagV = s.flagV := getLsbD_withBit b s h
theorem flagN_withBit (h : 7 ≠ k) : (withBit k b s).flagN = s.flagN := getLsbD_withBit b s h

theorem setC_withBit (h : 0 ≠ k) (c : Bool) : (withBit k b s).setC c = withBit k b (s.setC c) :=
  setP_setBit_withBit b s h c
theorem setZ_withBit (h : 1 ≠ k) (c : Bool) : (withBit k b s).setZ c = withBit k b (s.setZ c) :=
  setP_setBit_withBit b s h c
theorem setI_withBit (h : 2 ≠ k) (c : Bool) : (withBit k b s).setI c = withBit k b (s.setI c) :=
  setP_setBit_withBit b s h c
theorem setD_withBit (h : 3 ≠ k) (c : Bool) : (withBit k b s).setD c = withBit k b (s.setD c) :=
  setP_setBit_withBit b s h c
theorem setV_withBit (h : 6 ≠ k) (c : Bool) : (withBit k b s).setV c = withBit k b (s.setV c) :=
  setP_setBit_withBit b s h c
theorem setN_withBit (h : 7 ≠ k) (c : Bool) : (withBit k b s).setN c = withBit k b (s.setN c) :=
  setP_setBit_withBit b s h c

theorem setNZ_withBit (h1 : 1 ≠ k) (h7 : 7 ≠ k) (v : Byte) : (withBit k b s).setNZ v = withBit k b (s.setNZ v) := by
  rw [State.setNZ, setZ_withBit b s h1, setN_withBit b _ h7]
  rfl

/-- PHP and BRK push B as 1, whatever is stored (R384, R391). -/
theorem pushedP_withBit_four : (withBit 4 b s).pushedP = s.pushedP := by
  rw [pushedP_eq, pushedP_eq]
  apply BitVec.eq_of_getLsbD_eq
  intro j _
  by_cases hj : j = 4
  · simp [hj]
  · rw [BitVec.getLsbD_or, BitVec.getLsbD_or, getLsbD_withBit b s hj]

theorem enterTrap_withBit_four (ret vector : Addr) :
    enterTrap (withBit 4 b s) ret vector = withBit 4 b (enterTrap s ret vector) := by
  simp only [enterTrap, push16_withBit, pushedP_withBit_four, push_withBit, setI_withBit b _ (by decide : 2 ≠ 4),
    read16_withBit, setPc_withBit]

theorem returnFromTrap_withBit : returnFromTrap (withBit k b s) = returnFromTrap s := by
  simp only [returnFromTrap, pop_withBit, writeP_withBit]

theorem branch_withBit (taken : Bool) (d : Byte) :
    ∃ t, branch taken d s = .next t ∧ branch taken d (withBit k b s) = .next (withBit k b t) := by
  cases taken <;> exact ⟨_, rfl, rfl⟩

end

/-! ### Instructions -/

section
variable {k : Nat} (h0 : 0 ≠ k) (h1 : 1 ≠ k) (h6 : 6 ≠ k) (h7 : 7 ≠ k) (b : Bool) (s : State)
include h0 h1 h7

theorem setShiftFlags_withBit (sh : Shifted) : (withBit k b s).setShiftFlags sh = withBit k b (s.setShiftFlags sh) := by
  simp only [State.setShiftFlags, setC_withBit b _ h0, setNZ_withBit b _ h1 h7]

theorem compare_withBit (reg m : Byte) : (withBit k b s).compare reg m = withBit k b (s.compare reg m) := by
  simp only [State.compare, setC_withBit b _ h0, setNZ_withBit b _ h1 h7]

theorem shiftOperand_withBit (o : ShiftOp) (unit : Byte → Shifted) :
    shiftOperand o unit (withBit k b s) = withBit k b (shiftOperand o unit s) := by
  cases ho : o.operand with
  | none => simp only [shiftOperand, ho, withBit_a, setA_withBit, setShiftFlags_withBit h0 h1 h7]
  | some m => simp only [shiftOperand, ho, modifyOperand_withBit, setShiftFlags_withBit h0 h1 h7]

include h6

theorem setSumFlags_withBit (sum : Sum) : (withBit k b s).setSumFlags sum = withBit k b (s.setSumFlags sum) := by
  simp only [State.setSumFlags, setC_withBit b _ h0, setV_withBit b _ h6, setNZ_withBit b _ h1 h7]

end

/-- Bits 2, 3 and 4 of P steer nothing: an instruction that does not write such a bit does the same with another value of it
and keeps that value, but for PHP and BRK, which show bits 2 and 3 in the byte they push. -/
theorem runs_withBit {k : Nat} (hk : k = 2 ∨ k = 3 ∨ k = 4) (b : Bool) {i : Instr} (s : State) (hw : .bit k ∉ writes i)
    (hp : i.mnemonic ∈ [Mnemonic.php, .brk] → k = 4) : Runs i s fun t => exec i (withBit k b s) = .next (withBit k b t) := by
  have h0 : 0 ≠ k := by omega
  have h1 : 1 ≠ k := by omega
  have h6 : 6 ≠ k := by omega
  have h7 : 7 ≠ k := by omega
  cases i with
  | lda o | ldx o | ldy o =>
    exact ⟨_, rfl, by
      simp only [exec, execLda, execLdx, execLdy, readOperand_withBit, setA_withBit, setX_withBit, setY_withBit,
        setNZ_withBit b _ h1 h7, setCycles_withBit]⟩
  | and o | ora o | eor o =>
    exact ⟨_, rfl, by
      simp only [exec, execAnd, execOra, execEor, readOperand_withBit, withBit_a, setA_withBit,
        setNZ_withBit b _ h1 h7, setCycles_withBit]⟩
  | adc o | sbc o =>
    exact ⟨_, rfl, by
      simp only [exec, execAdc, execSbc, readOperand_withBit, withBit_a, flagC_withBit b _ h0, setA_withBit,
        setSumFlags_withBit h0 h1 h6 h7, setCycles_withBit]⟩
  | cmp o | cpx o | cpy o =>
    exact ⟨_, rfl, by
      simp only [exec, execCmp, execCpx, execCpy, readOperand_withBit, withBit_a, withBit_x, withBit_y,
        compare_withBit h0 h1 h7, setCycles_withBit]⟩
  | bit o =>
    exact ⟨_, rfl, by
      simp only [exec, execBit, readOperand_withBit, withBit_a, setZ_withBit b _ h1, setN_withBit b _ h7,
        setV_withBit b _ h6, setCycles_withBit]⟩
  | sta o | stx o | sty o =>
    exact ⟨_, rfl, by
      simp only [exec, execSta, execStx, execSty, withBit_a, withBit_x, withBit_y, storeOperand_withBit,
        setCycles_withBit]⟩
  | asl o | lsr o | rol o | ror o =>
    exact ⟨_, rfl, by
      simp only [exec, execAsl, execLsr, execRol, execRor, flagC_withBit b _ h0, shiftOperand_withBit h0 h1 h7,
        setCycles_withBit]⟩
  | inc o | dec o =>
    exact ⟨_, rfl, by
      simp only [exec, execInc, execDec, modifyOperand_withBit, setNZ_withBit b _ h1 h7, setCycles_withBit]⟩
  | tax | tsx | inx | dex | tay | iny | dey | txa | tya =>
    exact ⟨_, rfl, by
      simp only [exec, execTax, execTsx, execInx, execDex, execTay, execIny, execDey, execTxa, execTya, withBit_a,
        withBit_x, withBit_y, withBit_sp, setA_withBit, setX_withBit, setY_withBit, setNZ_withBit b _ h1 h7,
        setCycles_withBit]⟩
  | pla =>
    exact ⟨_, rfl, by simp only [exec, execPla, pop_withBit, setA_withBit, setNZ_withBit b _ h1 h7, setCycles_withBit]⟩
  | jmp o => exact ⟨_, rfl, by simp only [exec, execJmp, resolve_withBit, setPc_withBit, setCycles_withBit]⟩
  | jsr a =>
    exact ⟨_, rfl, by
      simp only [exec, execJsr, resolve_withBit, withBit_pc, push16_withBit, setPc_withBit, setCycles_withBit]⟩
  | rts => exact ⟨_, rfl, by simp only [exec, execRts, pop16_withBit, setPc_withBit, setCycles_withBit]⟩
  | txs | pha | nop | undef op => exact ⟨_, rfl, rfl⟩
  | php | brk =>
    obtain rfl := hp (by simp [Instr.mnemonic])
    exact ⟨_, rfl, by
      simp only [exec, execPhp, execBrk, pushedP_withBit_four, push_withBit, enterTrap_withBit_four, withBit_pc,
        withBit_cfg, setCycles_withBit]⟩
  | plp | rti => rcases hk with rfl | rfl | rfl <;> simp [writes] at hw
  | bpl d | bmi d =>
    simp only [Runs, exec, execBpl, execBmi, flagN_withBit b s h7]
    exact branch_withBit b s _ d
  | bvc d | bvs d =>
    simp only [Runs, exec, execBvc, execBvs, flagV_withBit b s h6]
    exact branch_withBit b s _ d
  | bcc d | bcs d =>
    simp only [Runs, exec, execBcc, execBcs, flagC_withBit b s h0]
    exact branch_withBit b s _ d
  | bne d | beq d =>
    simp only [Runs, exec, execBne, execBeq, flagZ_withBit b s h1]
    exact branch_withBit b s _ d
  | clc | sec => exact ⟨_, rfl, by simp only [exec, execClc, execSec, setC_withBit b _ h0, setCycles_withBit]⟩
  | clv => exact ⟨_, rfl, by simp only [exec, execClv, setV_withBit b _ h6, setCycles_withBit]⟩
  | cli | sei =>
    have h2 : 2 ≠ k := by simpa [writes, eq_comm] using hw
    exact ⟨_, rfl, by simp only [exec, execCli, execSei, setI_withBit b _ h2, setCycles_withBit]⟩
  | cld | sed =>
    have h3 : 3 ≠ k := by simpa [writes, eq_comm] using hw
    exact ⟨_, rfl, by simp only [exec, execCld, execSed, setD_withBit b _ h3, setCycles_withBit]⟩

/-- Settles O22: PLP and RTI overwrite B; no other instruction writes it, and PHP and BRK push a 1 in its place. -/
theorem breakBitIsUnobservable : Obligations.BreakBitIsUnobservable := by
  intro i s b
  refine ⟨fun hm => ?_, fun hm => runs_withBit (by omega) b s (break_unused_notMem_writes hm).1 fun _ => rfl⟩
  cases i with
  | plp => simp only [exec, execPlp, pop_withBit, writeP_withBit]
  | rti => simp only [exec, execRti, returnFromTrap_withBit]
  | _ => simp [Instr.mnemonic] at hm

/-- Settles O24: an instruction that neither writes I nor pushes P keeps I and does the same with another. -/
theorem interruptFlagSteersNothing : Obligations.InterruptFlagSteersNothing := by
  intro i s b hm
  simp only [List.mem_cons, not_or, List.not_mem_nil, not_false_eq_true, and_true] at hm
  obtain ⟨hphp, hbrk, hplp, hrti, hcli, hsei⟩ := hm
  exact runs_withBit (by omega) b s (interrupt_notMem_writes (by simp [*])) (by simp [*])

end Sys2Proof.Machine
end

section
/-! The stack page, and bit 5 of P. -/

namespace Sys2Proof.Machine

open Sys2Proof.Claims

/-! ### The stack wraps -/

theorem execN_succ {i : Instr} {n : Nat} {s t : State} (h : execN i n s = .next t) : execN i (n + 1) s = exec i t := by
  induction n generalizing s with
  | zero =>
    obtain rfl : s = t := by simpa [execN] using h
    rw [execN]
    cases exec i s <;> rfl
  | succ n ih =>
    rw [execN] at h ⊢
    cases hx : exec i s with
    | next u =>
      rw [hx] at h
      exact ih h
    | fault r => cases r
    | refused r =>
      rw [hx] at h
      cases h

/-- A push keeps every byte that is `v` already, and stores `v` where SP points. -/
theorem push_read {s : State} {v : Byte} {a : Addr} (ha : s.intercepted a = false)
    (h : a = s.stackAddr ∨ s.mem.read a.toNat = v) : (push s v).mem.read a.toNat = v := by
  by_cases he : a = s.stackAddr
  · subst he
    exact push_stores ha v
  · have hn : a.toNat ∉ [s.stackAddr.toNat] := by
      simpa using fun e => he (BitVec.eq_of_toNat_eq e)
    rw [(push_writesOnly s v).mem _ hn]
    exact h.resolve_left he

/-- `n` PHAs complete, lower SP by `n`, and leave A in each of the `n` slots below the first SP. -/
theorem execN_pha (s : State) (n : Nat) :
    ∃ t, execN .pha n s = .next t ∧ t.sp = s.sp - BitVec.ofNat 8 n ∧ t.a = s.a ∧ t.cfg = s.cfg ∧
      ∀ j < n, Stores s t (slot s (BitVec.ofNat 8 j)) s.a := by
  induction n with
  | zero => exact ⟨s, rfl, (BitVec.sub_zero s.sp).symm, rfl, rfl, fun j hj => absurd hj (Nat.not_lt_zero j)⟩
  | succ n ih =>
    obtain ⟨t, ht, hsp, ha, hcfg, hst⟩ := ih
    have hw := push_writesOnly t t.a
    refine ⟨(push t t.a).setCycles (some 3), execN_succ ht, ?_, hw.a.trans ha, hw.cfg.trans hcfg, fun j hj hio => ?_⟩
    · rw [State.setCycles_sp, push_sp, hsp, BitVec.sub_sub, BitVec.ofNat_add]
      rfl
    · have hio' : t.intercepted (slot s (BitVec.ofNat 8 j)) = false := by rw [intercepted_congr hcfg, hio]
      rw [State.setCycles_mem, ← ha]
      apply push_read hio'
      rcases Nat.lt_succ_iff_lt_or_eq.mp hj with hj | rfl
      · exact .inr ((hst j hj hio).trans ha.symm)
      · exact .inl (by rw [State.stackAddr, hcfg, hsp]; rfl)

/-- Settles O48: the 256 slots below SP are the whole stack page. -/
theorem stackWrapsSilently : Obligations.StackWrapsSilently := by
  intro s n
  obtain ⟨t, ht, hsp, ha, -, hst⟩ := execN_pha s n
  refine ⟨t, ht, hsp, ha, fun hn k => ?_⟩
  have hk : slot s (BitVec.ofNat 8 (s.sp - k).toNat) = word s.cfg.stackPage k := by
    rw [slot, BitVec.ofNat_toNat, BitVec.setWidth_eq, sub_sub_cancel]
  rw [← hk]
  exact hst _ (by have := (s.sp - k).isLt; omega)

/-! ### Bit 5 of P -/

theorem stackAddr_eq_slot (s : State) : s.stackAddr = slot s 0 :=
  congrArg (word s.cfg.stackPage) (BitVec.sub_zero s.sp).symm

theorem push16_stackAddr (s : State) (w : Addr) : (push16 s w).stackAddr = slot s 2 := by
  rw [State.stackAddr, (push16_writesOnly s w).cfg, push16_sp, sub_one_sub_one]
  rfl

theorem pushedP_congr {s t : State} (h : t.p = s.p) : t.pushedP = s.pushedP := by
  rw [pushedP_eq, pushedP_eq, h]

/-- The transactions of taking the trap (R391): return address, P, and the two vector reads. -/
theorem enterTrap_bus (s : State) (ret vector : Addr) :
    ∃ lo hi, (enterTrap s ret vector).bus = s.bus ++ [.write (slot s 0) (hiByte ret), .write (slot s 1) (loByte ret),
      .write (slot s 2) s.pushedP, .read vector lo, .read (vector + 1) hi] := by
  obtain ⟨lo, hi, -, hbus, -⟩ := read16_spec ((push (push16 s ret) (push16 s ret).pushedP).setI true) vector
  refine ⟨lo, hi, ?_⟩
  rw [enterTrap, State.setPc_bus, hbus, State.setI_eq, State.setP_bus, push_bus, push16_stackAddr, push16_bus,
    stackAddr_eq_slot, pushedP_congr (push16_writesOnly s ret).p, List.append_assoc, List.append_assoc]
  rfl

/-- Settles O60: every read of P ORs bit 5 in, and so does every write of P as a whole. -/
theorem unusedStatusBitIsAlwaysSet : Obligations.UnusedStatusBitIsAlwaysSet := by
  intro s
  refine ⟨fun r hr => ?_, ?_, ⟨_, rfl, ?_⟩, ⟨_, rfl, ?_⟩, ⟨_, rfl, rfl⟩, ⟨_, rfl, ?_⟩, rfl⟩
  · unfold observe at hr
    split at hr
    · cases hr
      exact State.readP_bit5 s
    · cases hr
  · simp [pushedP_eq]
  · beta_reduce
    rw [State.setCycles_bus, push_bus, stackAddr_eq_slot]
  · obtain ⟨lo, hi, hbus⟩ := enterTrap_bus s (s.pc + 1) s.cfg.irqVector
    rw [State.setCycles_bus, hbus]
    simp
  · obtain ⟨-, -, -, hp, -⟩ := returnFromTrap_frame s
    exact hp

/-- Settles O11: the reset state lists no byte of memory, and bit 5 of its P is set. -/
theorem resetStateHasInv : Obligations.ResetStateHasInv :=
  ⟨⟨List.Pairwise.nil, fun _ hc => absurd hc List.not_mem_nil⟩, rfl⟩

end Sys2Proof.Machine
end

section
/-! The bus and memory: what a transaction answers and leaves, on the default path and at an intercepted address. -/

namespace Sys2Proof.Machine

open Sys2Proof.Claims

theorem answer_intercepted {s : State} {a : Addr} (h : s.intercepted a = true) :
    s.answer a = Config.hostByte s.draws := by
  simp [State.answer, h]

theorem drawsAfter_intercepted {s : State} {a : Addr} (h : s.intercepted a = true) :
    s.drawsAfter a = s.draws + 1 := by
  simp [State.drawsAfter, h]

@[simp] theorem busWrite_draws (s : State) (a : Addr) (v : Byte) : (busWrite s a v).draws = s.drawsAfter a := rfl

/-- What a write that the host intercepts leaves at its address (R64, U6; log 2). -/
theorem busWrite_read_intercepted {s : State} {a : Addr} (h : s.intercepted a = true) (v : Byte) :
    (busWrite s a v).mem.read a.toNat = Config.hostByte s.draws := by
  simp [busWrite, h]

theorem busWrite_intercepted (s : State) (a b : Addr) (v : Byte) :
    (busWrite s a v).intercepted b = s.intercepted b :=
  intercepted_congr (busWrite_writesOnly s a v).cfg b

/-- A read off IO_ADDRS after a write answers the byte written, or what was there before (R77). -/
theorem busWrite_answer {s : State} {b : Addr} (h : s.intercepted b = false) (a : Addr) (v : Byte) :
    (busWrite s a v).answer b = if b = a then v else s.mem.read b.toNat := by
  rw [answer_default (by rw [busWrite_intercepted, h])]
  split
  · next hba =>
    subst hba
    exact busWrite_read_same h v
  · next hba => exact busWrite_read_other s a v fun e => hba (BitVec.eq_of_toNat_eq e)

/-- Settles O27: a write on the default path is an update of the array at one address, and a read answers the array. -/
theorem defaultPathIsTheArray : Obligations.DefaultPathIsTheArray := by
  intro s a b v
  refine ⟨fun h => ⟨answer_default h, rfl⟩, fun h k => ?_, fun h => busWrite_answer h a v⟩
  split
  · next hk =>
    subst hk
    exact busWrite_read_same h v
  · next hk => exact busWrite_read_other s a v hk

/-- Settles O28: each transaction at an intercepted address takes the next free byte, a read as its answer and a write as
what memory keeps. -/
theorem interceptedAddressesAreFree : Obligations.InterceptedAddressesAreFree := by
  intro s a v h
  have hnext : (busRead s a).st.answer a = Config.hostByte (s.draws + 1) := by
    rw [answer_intercepted (intercepted_congr (busRead_readsOnly s a).cfg a ▸ h), busRead_draws,
      drawsAfter_intercepted h]
  exact ⟨answer_intercepted h, hnext, rfl, busWrite_bus s a v, busWrite_read_intercepted h v,
    drawsAfter_intercepted h⟩

/-- Settles O29: the fetch is a read of the address stored to, after the write. -/
theorem storesAreFetched : Obligations.StoresAreFetched := by
  intro s a h
  have hread : (busWrite s a s.a).answer a = s.a := by rw [busWrite_answer h, if_pos rfl]
  exact ⟨_, rfl, hread⟩

end Sys2Proof.Machine
end

section
/-! Memory outside the addresses an instruction stores to. -/

namespace Sys2Proof.Machine

open Sys2Proof.Claims

/-- An instruction that does not write memory leaves every byte. -/
theorem runs_sameMemoryBut {i : Instr} (h : .mem ∉ writes i) (l : List Nat) (s : State) :
    Runs i s (SameMemoryBut l s) := by
  obtain ⟨t, ht, hw⟩ := exec_within i s
  exact ⟨t, ht, fun k _ => congrArg (Memory.read · k) (hw.same .mem h)⟩

/-- Updates of registers, flags and ports leave memory alone. -/
theorem sameMemoryBut_congr {l : List Nat} {s t u : State} (h : SameMemoryBut l s t) (hmem : u.mem = t.mem) :
    SameMemoryBut l s u := fun k hk => hmem ▸ h k hk

theorem sameMemoryBut_setCycles {l : List Nat} {s t : State} (h : SameMemoryBut l s t) (n : Option Nat) :
    SameMemoryBut l s (t.setCycles n) := sameMemoryBut_congr h rfl

theorem sameMemoryBut_setPc {l : List Nat} {s t : State} (h : SameMemoryBut l s t) (a : Addr) :
    SameMemoryBut l s (t.setPc a) := sameMemoryBut_congr h rfl

/-- A shift stores where its operand says, and nowhere in the accumulator mode (R320). -/
theorem shiftOperand_sameMemoryBut (o : ShiftOp) (unit : Byte → Shifted) (s : State) :
    SameMemoryBut (storedAt (.asl o) s) s (shiftOperand o unit s) := by
  have hmem (m : Operand) := (modifyOperand_writesOnly m (fun v => (unit v).r) s).mem
  cases o with
  | acc => exact fun _ _ => rfl
  | zp z => exact sameMemoryBut_congr (hmem (.zp z)) rfl
  | zpx z => exact sameMemoryBut_congr (hmem (.zpx z)) rfl
  | abs a => exact sameMemoryBut_congr (hmem (.abs a)) rfl
  | abx a => exact sameMemoryBut_congr (hmem (.abx a)) rfl

theorem push_stackAddr (s : State) (v : Byte) : (push s v).stackAddr = slot s 1 := stackAddr_push s v

theorem push_sameMemoryBut (s : State) (v : Byte) : SameMemoryBut [(slot s 0).toNat] s (push s v) := by
  rw [← stackAddr_eq_slot]
  exact (push_writesOnly s v).mem

theorem push16_sameMemoryBut (s : State) (w : Addr) :
    SameMemoryBut [(slot s 0).toNat, (slot s 1).toNat] s (push16 s w) := by
  rw [← stackAddr_eq_slot, ← push_stackAddr s (hiByte w)]
  exact (push16_writesOnly s w).mem

/-- Taking the trap stores to the three slots of its pushes (R391). -/
theorem enterTrap_sameMemoryBut (s : State) (ret vector : Addr) :
    SameMemoryBut [(slot s 0).toNat, (slot s 1).toNat, (slot s 2).toNat] s (enterTrap s ret vector) := by
  obtain ⟨-, -, -, -, -, -, -, -, -, hmem⟩ := enterTrap_frame s ret vector
  have hw := (push16_writesOnly s ret).trans (push_writesOnly _ (push16 s ret).pushedP)
  rw [stackAddr_eq_slot, push_stackAddr, push16_stackAddr] at hw
  intro k hk
  rw [hmem]
  exact hw.mem k hk

/-- Settles O21: an instruction that writes memory does so by a store, a read-modify-write, a push or the trap. -/
theorem memoryChangesOnlyWhereStored : Obligations.MemoryChangesOnlyWhereStored := by
  intro i s
  cases i with
  | sta o | stx o | sty o => exact ⟨_, rfl, sameMemoryBut_setCycles (storeOperand_writesOnly o.operand _ s).mem _⟩
  | asl o | lsr o | rol o | ror o => exact ⟨_, rfl, sameMemoryBut_setCycles (shiftOperand_sameMemoryBut o _ s) _⟩
  | inc o => exact ⟨_, rfl, sameMemoryBut_congr (modifyOperand_writesOnly o.operand (· + 1) s).mem (by simp)⟩
  | dec o => exact ⟨_, rfl, sameMemoryBut_congr (modifyOperand_writesOnly o.operand (· - 1) s).mem (by simp)⟩
  | pha | php => exact ⟨_, rfl, sameMemoryBut_setCycles (push_sameMemoryBut s _) _⟩
  | jsr a => exact ⟨_, rfl, sameMemoryBut_setCycles (sameMemoryBut_setPc (push16_sameMemoryBut s _) _) _⟩
  | brk => exact ⟨_, rfl, sameMemoryBut_setCycles (enterTrap_sameMemoryBut s _ _) _⟩
  | _ => exact runs_sameMemoryBut (by simp [writes]) _ s

end Sys2Proof.Machine
end

section
/-! The transactions of each instruction, as reads and writes in order. -/

namespace Sys2Proof.Machine

open Sys2Proof.Claims

/-- From `s` to `t` the bus saw just the reads (true) and writes (false) of `l`, in order. -/
def Accesses (l : List Bool) (s t : State) : Prop := ∃ events, t.bus = s.bus ++ events ∧ kinds events = l

theorem Accesses.refl (s : State) : Accesses [] s s := ⟨[], (List.append_nil _).symm, rfl⟩

theorem Accesses.trans {l m : List Bool} {s t u : State} (h : Accesses l s t) (k : Accesses m t u) :
    Accesses (l ++ m) s u := by
  obtain ⟨es, ht, rfl⟩ := h
  obtain ⟨fs, hu, rfl⟩ := k
  exact ⟨es ++ fs, by rw [hu, ht, List.append_assoc], List.map_append⟩

/-- Updates of registers, flags and memory are no transactions. -/
theorem Accesses.congr {l : List Bool} {s t u : State} (h : Accesses l s t) (hbus : u.bus = t.bus) :
    Accesses l s u := by
  rwa [Accesses, hbus]

theorem Accesses.setCycles {l : List Bool} {s t : State} (h : Accesses l s t) (n : Option Nat) :
    Accesses l s (t.setCycles n) := h.congr rfl

theorem Accesses.setPc {l : List Bool} {s t : State} (h : Accesses l s t) (a : Addr) :
    Accesses l s (t.setPc a) := h.congr rfl

/-! ### Bus, operands, stack, trap -/

theorem busRead_accesses (s : State) (a : Addr) : Accesses [true] s (busRead s a).st := ⟨_, busRead_bus s a, rfl⟩

theorem busWrite_accesses (s : State) (a : Addr) (v : Byte) : Accesses [false] s (busWrite s a v) :=
  ⟨_, busWrite_bus s a v, rfl⟩

/-- The resolver reads the two bytes of a pointer, in the modes that have one (R160). -/
theorem resolve_accesses (o : Operand) (penalty : Bool) (s : State) :
    Accesses (List.replicate (pointerReads o) true) s (resolve o penalty s).st := by
  have htwo (a b : Addr) : Accesses [true, true] s (busRead (busRead s a).st b).st :=
    (busRead_accesses s a).trans (busRead_accesses _ b)
  cases o with
  | ind a | izx z | izy z => exact htwo _ _
  | _ => exact Accesses.refl s

/-- The accesses of a reading instruction: the pointer's and one read, or none for a literal (R144, R158). -/
def readKinds (o : Operand) : List Bool :=
  if o.mode = .imm then [] else List.replicate (pointerReads o) true ++ [true]

theorem readOperand_accesses (o : Operand) (s : State) : Accesses (readKinds o) s (readOperand o s).st := by
  have hread := (resolve_accesses o true s).trans (busRead_accesses _ (resolve o true s).ea)
  cases o with
  | imm v => exact Accesses.refl s
  | _ => exact hread

theorem storeOperand_accesses (o : Operand) (v : Byte) (s : State) :
    Accesses (List.replicate (pointerReads o) true ++ [false]) s (storeOperand o v s) :=
  (resolve_accesses o false s).trans (busWrite_accesses _ _ v)

/-- A read-modify-write makes one read and one write after the pointer's reads (R320, D13). -/
theorem modifyOperand_accesses (o : Operand) (f : Byte → Byte) (s : State) :
    Accesses (List.replicate (pointerReads o) true ++ [true, false]) s (modifyOperand o f s).st :=
  (resolve_accesses o false s).trans ((busRead_accesses _ _).trans (busWrite_accesses _ _ _))

theorem shiftOperand_accesses (o : ShiftOp) (unit : Byte → Shifted) (s : State) :
    Accesses (accessKinds (.asl o)) s (shiftOperand o unit s) := by
  have hmodify (m : Operand) := modifyOperand_accesses m (fun v => (unit v).r) s
  cases o with
  | acc => exact (Accesses.refl s).congr rfl
  | zp z => exact (hmodify (.zp z)).congr rfl
  | zpx z => exact (hmodify (.zpx z)).congr rfl
  | abs a => exact (hmodify (.abs a)).congr rfl
  | abx a => exact (hmodify (.abx a)).congr rfl

theorem push_accesses (s : State) (v : Byte) : Accesses [false] s (push s v) :=
  (busWrite_accesses s s.stackAddr v).congr rfl

theorem push16_accesses (s : State) (w : Addr) : Accesses [false, false] s (push16 s w) := ⟨_, push16_bus s w, rfl⟩

theorem pop_accesses (s : State) : Accesses [true] s (pop s).st := ⟨_, pop_bus s, rfl⟩

theorem pop16_accesses (s : State) : Accesses [true, true] s (pop16 s).st :=
  let ⟨_, _, _, hbus, _⟩ := pop16_spec s
  ⟨_, hbus, rfl⟩

theorem enterTrap_accesses (s : State) (ret vector : Addr) :
    Accesses [false, false, false, true, true] s (enterTrap s ret vector) :=
  let ⟨_, _, hbus⟩ := enterTrap_bus s ret vector
  ⟨_, hbus, rfl⟩

theorem returnFromTrap_accesses (s : State) : Accesses [true, true, true] s (returnFromTrap s) :=
  ((pop_accesses s).congr rfl).trans ((pop16_accesses ((pop s).st.writeP (pop s).value)).congr rfl)

theorem branch_accesses (taken : Bool) (d : Byte) (s : State) :
    ∃ t, branch taken d s = .next t ∧ Accesses [] s t := by
  cases taken <;> exact ⟨_, rfl, (Accesses.refl s).congr rfl⟩

/-! ### Instructions -/

/-- Settles O16: an instruction's transactions are those of the one operation by which it reaches memory, because updates
of registers and flags make none. -/
theorem accessesOfEachInstruction : Obligations.AccessesOfEachInstruction := by
  intro i s
  change Runs i s (Accesses (accessKinds i) s)
  cases i with
  | lda o | ldx o | ldy o | adc o | sbc o | cmp o | cpx o | cpy o | and o | ora o | eor o | bit o =>
    exact ⟨_, rfl, (readOperand_accesses o.operand s).congr (by simp)⟩
  | sta o | stx o | sty o => exact ⟨_, rfl, (storeOperand_accesses o.operand _ s).setCycles _⟩
  | asl o | lsr o | rol o | ror o => exact ⟨_, rfl, (shiftOperand_accesses o _ s).setCycles _⟩
  | inc o => exact ⟨_, rfl, (modifyOperand_accesses o.operand (· + 1) s).congr (by simp)⟩
  | dec o => exact ⟨_, rfl, (modifyOperand_accesses o.operand (· - 1) s).congr (by simp)⟩
  | pha | php => exact ⟨_, rfl, (push_accesses s _).setCycles _⟩
  | pla | plp => exact ⟨_, rfl, (pop_accesses s).congr rfl⟩
  | jmp o => exact ⟨_, rfl, (resolve_accesses o.operand false s).congr rfl⟩
  | jsr a => exact ⟨_, rfl, ((push16_accesses s _).setPc _).setCycles _⟩
  | rts => exact ⟨_, rfl, (pop16_accesses s).congr rfl⟩
  | rti => exact ⟨_, rfl, (returnFromTrap_accesses s).setCycles _⟩
  | brk => exact ⟨_, rfl, (enterTrap_accesses s _ _).setCycles _⟩
  | bpl d | bmi d | bvc d | bvs d | bcc d | bcs d | bne d | beq d => exact branch_accesses _ d s
  | tax | tay | txa | tya | tsx | txs | inx | iny | dex | dey | clc | sec | cli | sei | cld | sed | clv | nop
  | undef op => exact ⟨_, rfl, (Accesses.refl s).congr rfl⟩

end Sys2Proof.Machine
end

section
/-! The opcode table holds each instruction's own row, and what the decoder reads from a byte string. -/

namespace Sys2Proof

/-! ### The opcode table -/

/-- The extra-cycle class of a mnemonic and mode: the branch rule for relative, +1 on a page crossing for the reading
instructions in ABX, ABY and IZY (R157, R393). -/
def extraClass (m : Mnemonic) (mode : Mode) : ExtraCycles :=
  if mode = .rel then .branch
  else if mode ∈ [Mode.abx, .aby, .izy] ∧ m ∉ [Mnemonic.sta, .asl, .lsr, .rol, .ror, .inc, .dec] then .page
  else .none

theorem extraClass_eq_branch_iff (m : Mnemonic) (mode : Mode) : extraClass m mode = .branch ↔ mode = .rel := by
  unfold extraClass
  split_ifs with hrel
  · exact iff_of_true rfl hrel
  all_goals exact iff_of_false (by decide) hrel

theorem extraClass_eq_page_iff (m : Mnemonic) (mode : Mode) :
    extraClass m mode = .page ↔
      mode ∈ [Mode.abx, .aby, .izy] ∧ m ∉ [Mnemonic.sta, .asl, .lsr, .rol, .ror, .inc, .dec] := by
  unfold extraClass
  split_ifs with hrel hpage
  · simp [hrel]
  · exact iff_of_true rfl hpage
  · exact iff_of_false (by decide) hpage

/-- The row the opcode table must hold for an instruction (R120). -/
def Instr.tableRow (i : Instr) : OpcodeRow := ⟨opcodeOf i, i.mnemonic, i.mode, i.base, extraClass i.mnemonic i.mode⟩

/-- The table's row at an instruction's opcode byte is the instruction's own, one case for each of the 151 rows. -/
theorem rowOf_opcodeOf {i : Instr} (h : i.mnemonic ≠ .undef) : rowOf (opcodeOf i) = some i.tableRow := by
  cases i with
  | lda o | ldx o | ldy o | sta o | stx o | sty o | adc o | sbc o | cmp o | cpx o | cpy o | and o | ora o | eor o
  | bit o | asl o | lsr o | rol o | ror o | inc o | dec o | jmp o =>
    cases o <;> simp only [opcodeOf, Instr.tableRow, Instr.base] <;> rfl
  | undef op => exact absurd rfl h
  | _ => simp only [opcodeOf, Instr.tableRow, Instr.base]; rfl

/-- The 105 undefined bytes have no row (R125). -/
theorem rowOf_of_mem_undefinedOpcodes : ∀ op ∈ undefinedOpcodes, rowOf op = none := List.filterMap_eq_nil_iff.mp rfl

theorem mem_undefinedOpcodes_iff_wf (op : Byte) : op ∈ undefinedOpcodes ↔ (Instr.undef op).wf = true :=
  List.contains_iff_mem.symm

theorem eq_undef_of_mnemonic {i : Instr} (h : i.mnemonic = .undef) : i = .undef (opcodeOf i) := by
  cases i with
  | undef op => rfl
  | _ => cases h

/-- An opcode byte is followed by as many operand bytes as the mode of its instruction has (R101, R106). -/
theorem operandCount_opcodeOf {i : Instr} (h : i.wf = true) : operandCount (opcodeOf i) = i.mode.operandBytes := by
  unfold operandCount
  by_cases hm : i.mnemonic = .undef
  · rw [eq_undef_of_mnemonic hm] at h
    rw [rowOf_of_mem_undefinedOpcodes _ ((mem_undefinedOpcodes_iff_wf _).mpr h), eq_undef_of_mnemonic hm]
    rfl
  · rw [rowOf_opcodeOf hm]
    rfl

/-- An instruction is one byte longer than its mode's operand (R101). -/
theorem length_encode (i : Instr) : (encode i).length = 1 + i.mode.operandBytes := by
  unfold encode Instr.mode
  cases i.operand with
  | none => dsimp only; split <;> rfl
  | some o => cases o <;> rfl

/-! ### What the decoder reads -/

/-- An opcode byte and its operand bytes are read as one instruction, and the bytes after them are left (R100, R101). -/
theorem decode_cons {op : Byte} {operand : List Byte} (h : operand.length = operandCount op) (rest : List Byte) :
    decode (op :: operand ++ rest) = .ok (decodeOp op (operand.getD 0 0) (operand.getD 1 0), rest) := by
  have hle := operandCount_le op
  match operand with
  | [] => simp [decode, ← h]
  | [b1] => simp [decode, ← h]
  | [b1, b2] => simp [decode, ← h]
  | _ :: _ :: _ :: _ => exact absurd (h ▸ hle) (by simp)

/-- What the decoder accepts: an opcode byte, the operand bytes that it uses, and the rest. -/
theorem decode_eq_ok {bytes rest : List Byte} {i : Instr} (h : decode bytes = .ok (i, rest)) :
    ∃ op b1 b2, i = decodeOp op b1 b2 ∧ bytes = op :: usedBytes (operandCount op) b1 b2 ++ rest := by
  cases bytes with
  | nil => cases h
  | cons op tail =>
    have hle := operandCount_le op
    generalize hn : operandCount op = n at hle
    simp only [decode, hn] at h
    interval_cases n
    · cases h
      exact ⟨op, 0, 0, rfl, by rw [hn]; rfl⟩
    · match tail with
      | [] => cases h
      | b1 :: _ => cases h; exact ⟨op, b1, 0, rfl, by rw [hn]; rfl⟩
    · match tail with
      | [] | [_] => cases h
      | b1 :: b2 :: _ => cases h; exact ⟨op, b1, b2, rfl, by rw [hn]; rfl⟩

/-- An opcode byte with enough bytes after it holds an instruction, whatever the byte is (R101, R126). -/
theorem decode_of_operandCount_le {op : Byte} {tail : List Byte} (h : operandCount op ≤ tail.length) :
    ∃ i r, decode (op :: tail) = .ok (i, r) := by
  have hread := decode_cons (List.length_take_of_le h) (tail.drop (operandCount op))
  rw [List.cons_append, List.take_append_drop] at hread
  exact ⟨_, _, hread⟩

theorem opcodeOf_decodeOp (op b1 b2 : Byte) : opcodeOf (decodeOp op b1 b2) = op :=
  (List.cons.inj (encode_decodeOp op b1 b2)).1

/-- A listed byte decodes as undefined, because any other instruction would have a row at it. -/
theorem decodeOp_of_mem_undefinedOpcodes {op : Byte} (h : op ∈ undefinedOpcodes) (b1 b2 : Byte) :
    decodeOp op b1 b2 = .undef op := by
  by_cases hm : (decodeOp op b1 b2).mnemonic = .undef
  · rw [eq_undef_of_mnemonic hm, opcodeOf_decodeOp]
  · have hrow := rowOf_opcodeOf hm
    rw [opcodeOf_decodeOp, rowOf_of_mem_undefinedOpcodes op h] at hrow
    cases hrow

end Sys2Proof
end

section
/-! The decoder and the encoder undo each other, and the statements about encoding. -/

namespace Sys2Proof

/-- The opcode map at an instruction's own opcode and operand bytes gives the instruction (R121, R122), one case for each
row of the table. -/
theorem decodeOp_opcodeOf {i : Instr} (h : i.wf = true) :
    decodeOp (opcodeOf i) ((encode i).tail.getD 0 0) ((encode i).tail.getD 1 0) = i := by
  cases i with
  | lda o | sta o | adc o | sbc o | cmp o | and o | ora o | eor o =>
    cases o with
    | abs a | abx a | aby a =>
      conv_rhs => rw [← addrOf_loByte_hiByte a]
      simp only [opcodeOf]; rfl
    | _ => simp only [opcodeOf]; rfl
  | ldx o =>
    cases o with
    | abs a | aby a =>
      conv_rhs => rw [← addrOf_loByte_hiByte a]
      simp only [opcodeOf]; rfl
    | _ => simp only [opcodeOf]; rfl
  | ldy o | asl o | lsr o | rol o | ror o | inc o | dec o =>
    cases o with
    | abs a | abx a =>
      conv_rhs => rw [← addrOf_loByte_hiByte a]
      simp only [opcodeOf]; rfl
    | _ => simp only [opcodeOf]; rfl
  | stx o | sty o | cpx o | cpy o | bit o =>
    cases o with
    | abs a =>
      conv_rhs => rw [← addrOf_loByte_hiByte a]
      simp only [opcodeOf]; rfl
    | _ => simp only [opcodeOf]; rfl
  | jmp o =>
    cases o with
    | abs a | ind a =>
      conv_rhs => rw [← addrOf_loByte_hiByte a]
      simp only [opcodeOf]; rfl
  | jsr a =>
    conv_rhs => rw [← addrOf_loByte_hiByte a]
    simp only [opcodeOf]; rfl
  | undef op => exact decodeOp_of_mem_undefinedOpcodes ((mem_undefinedOpcodes_iff_wf op).mpr h) _ _
  | _ => simp only [opcodeOf]; rfl

/-- Settles O1: the opcode byte tells the decoder how many operand bytes to take, and the opcode map at those bytes gives
the instruction back. -/
theorem decodeEncodeRoundTrip : Obligations.DecodeEncodeRoundTrip := by
  intro i rest hwf
  have hcount : (encode i).tail.length = operandCount (opcodeOf i) := by
    rw [List.length_tail, length_encode, operandCount_opcodeOf hwf, Nat.add_sub_cancel_left]
  have hread := decode_cons hcount rest
  rwa [decodeOp_opcodeOf hwf] at hread

/-- Settles O2: the decoder takes an opcode byte and the operand bytes it uses, which are the bytes of the instruction it
gives. -/
theorem decodedBytesAreTheEncoding : Obligations.DecodedBytesAreTheEncoding := by
  intro bytes i rest h
  obtain ⟨op, b1, b2, rfl, rfl⟩ := decode_eq_ok h
  exact ⟨wf_decodeOp op b1 b2, by rw [encode_decodeOp]⟩

/-- Settles O4: `undef op` is well formed exactly when its byte is listed, so both directions are the two directions of
the round trip. -/
theorem undefinedBytesAreThoseListed : Obligations.UndefinedBytesAreThoseListed := by
  intro op b1 b2 rest
  refine ⟨decode_of_operandCount_le ((operandCount_le op).trans (Nat.le_add_left 2 _)), fun hmem => ?_, fun hdec => ?_⟩
  · exact decodeEncodeRoundTrip (.undef op) (b1 :: b2 :: rest) ((mem_undefinedOpcodes_iff_wf op).mp hmem)
  · obtain ⟨hwf, -⟩ := decodedBytesAreTheEncoding _ _ _ hdec
    exact (mem_undefinedOpcodes_iff_wf op).mpr hwf

/-- Settles O5: the row at the instruction's opcode byte is its own. -/
theorem tableRowOfEachInstruction : Obligations.TableRowOfEachInstruction := by
  intro i hm
  exact ⟨i.tableRow, rowOf_opcodeOf hm, rfl, rfl, rfl, rfl, length_encode i,
    extraClass_eq_branch_iff i.mnemonic i.mode, extraClass_eq_page_iff i.mnemonic i.mode⟩

/-- Settles O3: the nine words are the encodings of their instructions, which the decoder undoes. -/
theorem wordsOfTheSpecDecode : Obligations.WordsOfTheSpecDecode :=
  ⟨decodeEncodeRoundTrip (.lda (.imm 0x01)) [0x85, 0x00] rfl,
    decodeEncodeRoundTrip (.sta (.zp 0x00)) [] rfl,
    decodeEncodeRoundTrip (.ldx (.aby 0x1234)) [] rfl,
    decodeEncodeRoundTrip (.adc (.izy 0x20)) [] rfl,
    decodeEncodeRoundTrip (.ror .acc) [] rfl,
    decodeEncodeRoundTrip (.jmp (.ind 0x10FF)) [] rfl,
    decodeEncodeRoundTrip (.bne 0xFB) [] rfl,
    decodeEncodeRoundTrip .sei [] rfl,
    decodeEncodeRoundTrip (.undef 0x02) [0xA9] rfl⟩

end Sys2Proof
end

section
/-! What the addressing-mode resolver gives (R140-R160): the zero-page and 16-bit sums as numbers, the page penalty, and
the two reads of a pointer. -/

namespace Sys2Proof

/-! ### Addresses as numbers -/

theorem byte_add_one_toNat (v : Byte) : (v + 1).toNat = (v.toNat + 1) % 256 := BitVec.toNat_add v 1

theorem word_zero (z : Byte) : word 0x00 z = BitVec.ofNat 16 z.toNat := by simp [word]

/-- A sum in zero page wraps modulo 256 (D9, D10, D11). -/
theorem word_zero_add (z i : Byte) : word 0x00 (z + i) = BitVec.ofNat 16 ((z.toNat + i.toNat) % 256) := by
  rw [word_zero, BitVec.toNat_add]

/-- The address after `p + i`, with both steps in zero page (D10, D11). -/
theorem word_zero_add_one (z i : Byte) :
    word 0x00 (z + i + 1) = BitVec.ofNat 16 ((z.toNat + i.toNat + 1) % 256) := by
  rw [word_zero, byte_add_one_toNat, BitVec.toNat_add, Nat.mod_add_mod]

/-- The next address within the page of `a` (R151). -/
theorem word_hiByte_loByte_add_one (a : Addr) :
    word (hiByte a) (loByte a + 1) = BitVec.ofNat 16 (a.toNat / 256 * 256 + (a.toNat + 1) % 256) := by
  rw [word, hiByte_toNat, byte_add_one_toNat, loByte_toNat, Nat.mod_add_mod]

/-- An indexed address wraps modulo 65536 (D12). -/
theorem add_zext16 (a : Addr) (i : Byte) : a + zext16 i = BitVec.ofNat 16 (a.toNat + i.toNat) := by
  rw [zext16, BitVec.ofNat_add, BitVec.ofNat_toNat, BitVec.ofNat_toNat, BitVec.setWidth_eq]

/-- A displacement is signed (R154). -/
theorem add_sext16 (a : Addr) (d : Byte) : a + sext16 d = BitVec.ofInt 16 (a.toNat + d.toInt) := by
  rw [BitVec.ofInt_add, BitVec.ofInt_natCast, BitVec.ofNat_toNat, BitVec.setWidth_eq]
  rfl

end Sys2Proof

namespace Sys2Proof.Machine

open Sys2Proof.Claims

/-! ### The page penalty -/

theorem page_word (hi lo : Byte) : page (word hi lo) = hi.toNat := by
  rw [page, ← hiByte_toNat, hiByte_word]

theorem cross_iff (base ea : Addr) : cross base ea = true ↔ page base ≠ page ea := by
  rw [cross, bne_iff_ne, ne_eq, ne_eq, ← BitVec.toNat_inj, hiByte_toNat, hiByte_toNat]
  rfl

theorem pageExtra_eq (penalty : Bool) (base ea : Addr) :
    pageExtra penalty base ea = if penalty = true ∧ page base ≠ page ea then 1 else 0 := by
  simp only [pageExtra, Bool.and_eq_true, cross_iff]

theorem indexed_eq (penalty : Bool) (base : Addr) (index : Byte) (s : State) :
    indexed penalty base index s =
      let ea := BitVec.ofNat 16 (base.toNat + index.toNat)
      ⟨ea, if penalty = true ∧ page base ≠ page ea then 1 else 0, s⟩ := by
  simp only [indexed, add_zext16, pageExtra_eq]

/-! ### The reads of a pointer -/

theorem answers_answer (s : State) (a : Addr) : Answers s a (s.answer a) := answer_default

/-- Two reads, at `p` and then at `q`, give the bytes `lo` and `hi`. -/
def ReadsTwo (s t : State) (p q : Addr) (lo hi : Byte) : Prop :=
  t.bus = s.bus ++ [.read p lo, .read q hi] ∧ Answers s p lo ∧ Answers s q hi

theorem busRead_busRead_readsTwo (s : State) (p q : Addr) :
    ReadsTwo s (busRead (busRead s p).st q).st p q (s.answer p) ((busRead s p).st.answer q) :=
  ⟨List.append_assoc s.bus _ _, answers_answer s p, answers_answer (busRead s p).st q⟩

/-- A pointer in zero page is the two bytes at `p` and at the next zero-page address, low first (R152, R153). -/
theorem readZpPointer_spec (s : State) (p : Byte) :
    ∃ lo hi, (readZpPointer s p).value = word hi lo ∧
      ReadsTwo s (readZpPointer s p).st (word 0x00 p) (word 0x00 (p + 1)) lo hi :=
  ⟨_, _, rfl, busRead_busRead_readsTwo s _ _⟩

/-- The pointer of IND is the two bytes at `a` and at the next address in the page of `a`, low first (R151). -/
theorem readPagePointer_spec (s : State) (a : Addr) :
    ∃ lo hi, (readPagePointer s a).value = word hi lo ∧
      ReadsTwo s (readPagePointer s a).st a (word (hiByte a) (loByte a + 1)) lo hi :=
  ⟨_, _, rfl, busRead_busRead_readsTwo s _ _⟩

/-- IZX takes its address from the pointer at the indexed zero-page address (R152). -/
theorem resolve_izx (z : Byte) (penalty : Bool) (s : State) :
    resolve (.izx z) penalty s = ⟨(readZpPointer s (z + s.x)).value, 0, (readZpPointer s (z + s.x)).st⟩ := rfl

/-- IZY indexes the address in the pointer, by the Y from before the reads (R153). -/
theorem resolve_izy (z : Byte) (penalty : Bool) (s : State) :
    resolve (.izy z) penalty s = indexed penalty (readZpPointer s z).value s.y (readZpPointer s z).st := rfl

/-! ### The statements about the resolver -/

/-- Settles O30: each sum of bytes or addresses is its number, reduced to the page or to 16 bits. -/
theorem effectiveAddressesWithoutPointer : Obligations.EffectiveAddressesWithoutPointer := by
  intro s pen v z d a
  refine ⟨rfl, ?zp, ?zpx, ?zpy, rfl, ?abx, ?aby, ?rel⟩
  case zp => rw [resolve, word_zero]
  case zpx => rw [resolve, word_zero_add]
  case zpy => rw [resolve, word_zero_add]
  case abx => exact indexed_eq pen a s.x s
  case aby => exact indexed_eq pen a s.y s
  case rel => rw [resolve, add_sext16]

/-- Only JMP has the mode IND (R151). -/
theorem eq_jmp_ind_of_mode {i : Instr} (h : i.mode = .ind) : ∃ a, i = .jmp (.ind a) := by
  cases i with
  | jmp o =>
    cases o with
    | ind a => exact ⟨a, rfl⟩
    | abs a => cases h
  | lda o | ldx o | ldy o | sta o | stx o | sty o | adc o | sbc o | cmp o | cpx o | cpy o | and o | ora o | eor o
  | bit o | asl o | lsr o | rol o | ror o | inc o | dec o => cases o <;> cases h
  | _ => cases h

/-- Settles O31: the high byte's address keeps the pointer's page and adds one to its low byte alone. -/
theorem indirectPointerStaysInItsPage : Obligations.IndirectPointerStaysInItsPage := by
  refine ⟨fun i hmode => ?mode, fun s pen a => ⟨fun hlow => ?inside, fun hlow => ?atEnd, ?reads⟩⟩
  case mode =>
    obtain ⟨a, rfl⟩ := eq_jmp_ind_of_mode hmode
    exact ⟨rfl, a, rfl⟩
  case inside =>
    bv_omega
  case atEnd =>
    rw [BitVec.toNat_ofNat]
    omega
  case reads =>
    obtain ⟨lo, hi, hvalue, hbus, hlo, hhi⟩ := readPagePointer_spec s a
    rw [word_hiByte_loByte_add_one] at hbus hhi
    exact ⟨lo, hi, hbus, hlo, hhi, by rw [← word_toNat, ← hvalue]; rfl, rfl⟩

/-- Settles O32: both modes read a zero-page pointer, IZX at the sum with X and IZY at the operand, and only IZY indexes
what it read. -/
theorem effectiveAddressesThroughPointers : Obligations.EffectiveAddressesThroughPointers := by
  intro s pen z
  constructor
  · obtain ⟨lo, hi, hvalue, hreads⟩ := readZpPointer_spec s (z + s.x)
    rw [word_zero_add, word_zero_add_one] at hreads
    rw [resolve_izx, hvalue]
    exact ⟨lo, hi, hreads, word_toNat hi lo, rfl⟩
  · obtain ⟨lo, hi, hvalue, hreads⟩ := readZpPointer_spec s z
    rw [word_zero, word_zero_add] at hreads
    rw [resolve_izy, hvalue, indexed_eq, page_word, word_toNat]
    exact ⟨lo, hi, hreads, BitVec.toNat_ofNat .., rfl⟩

/-- Settles O33: the resolver is a run of reads, which write no part of the state but the BUS port. -/
theorem resolverOnlyReads : Obligations.ResolverOnlyReads := by
  intro o pen s
  have h := resolve_readsOnly o pen s
  refine ⟨?regs, h.p, h.mem, ⟨h.cfg, h.diag, h.resetDone⟩, h.cycles, resolve_accesses o pen s⟩
  rw [regs, h.a, h.x, h.y, h.sp, h.pc]
  rfl

end Sys2Proof.Machine
end

section
/-! What loads, stores and transfers share with the other instructions: the N and Z update, the frame of a reading
instruction, and the effect of a store. -/

namespace Sys2Proof.Machine

open Sys2Proof.Claims

/-! ### N and Z -/

theorem flagZ_setNZ (s : State) (v : Byte) : (s.setNZ v).flagZ = (v == 0) := by
  rw [State.flagZ, State.setNZ_eq, State.setP_p, getLsbD_setBit, getLsbD_setBit]
  rfl

theorem flagN_setNZ (s : State) (v : Byte) : (s.setNZ v).flagN = v.getLsbD 7 := by
  rw [State.flagN, State.setNZ_eq, State.setP_p, getLsbD_setBit]
  rfl

/-- `SetNZ` makes Z and N describe its byte (R260). -/
theorem nz_setNZ (s : State) (v : Byte) : NZ v (s.setNZ v) := by
  have hsign : v.msb = true ↔ 128 ≤ v.toNat := by
    rw [BitVec.msb_eq_decide, decide_eq_true_iff]
  exact ⟨by rw [flagZ_setNZ, beq_iff_eq], by rw [flagN_setNZ, ← hsign, BitVec.msb_eq_getLsbD_last]⟩

theorem keepsFlags_setNZ {s u : State} (hp : u.p = s.p) (v : Byte) : KeepsFlags [1, 7] s (u.setNZ v) := by
  intro k _ hk
  simp only [List.mem_cons, List.not_mem_nil, or_false, not_or] at hk
  obtain ⟨h1, h7⟩ := hk
  simp [h1, h7, hp]

/-! ### Register updates -/

theorem noAccess_setA (s : State) (v : Byte) : NoAccess s (s.setA v) := ⟨rfl, fun _ => rfl, rfl, rfl, rfl⟩

theorem noAccess_setX (s : State) (v : Byte) : NoAccess s (s.setX v) := ⟨rfl, fun _ => rfl, rfl, rfl, rfl⟩

theorem noAccess_setY (s : State) (v : Byte) : NoAccess s (s.setY v) := ⟨rfl, fun _ => rfl, rfl, rfl, rfl⟩

theorem noAccess_setSp (s : State) (v : Byte) : NoAccess s (s.setSp v) := ⟨rfl, fun _ => rfl, rfl, rfl, rfl⟩

/-- A register-only instruction of two cycles that ends in `SetNZ`. -/
theorem setNZ_noAccess {s u : State} (hp : u.p = s.p) (h : NoAccess s u) (v : Byte) :
    let t := (u.setNZ v).setCycles (some 2)
    NZ v t ∧ KeepsFlags [1, 7] s t ∧ NoAccess s t ∧ t.cycles = some 2 :=
  ⟨nz_setNZ u v, keepsFlags_setNZ hp v, h, rfl⟩

/-! ### Reading instructions -/

theorem readOperand_value (o : Operand) (s : State) : (readOperand o s).value = operandByte o s := by
  cases o <;> rfl

theorem readOperand_bus (o : Operand) (s : State) : (readOperand o s).st.bus = operandBus o s := by
  cases o <;> rfl

/-- A reading instruction that only works on registers and flags once it has its operand. -/
theorem readFrame_of_noAccess {o : Operand} {flags : List Nat} {s t : State} (hflags : KeepsFlags flags s t)
    (h : NoAccess (readOperand o s).st t) : ReadFrame o flags s t := by
  have hread := readOperand_readsOnly o s
  obtain ⟨hbus, hmem, hcfg, hdiag, hreset⟩ := h
  exact ⟨hflags, hbus.trans (readOperand_bus o s), fun k => (hmem k).trans (congrArg (Memory.read · k) hread.mem),
    hcfg.trans hread.cfg, hdiag.trans hread.diag, hreset.trans hread.resetDone⟩

/-- An instruction has the row whose count the table gives for its opcode byte (R591). -/
theorem row_of_baseCycles {i : Instr} {op : Byte} {length cycles : Nat} (hop : opcodeOf i = op)
    (hlength : (encode i).length = length) (hcycles : baseCycles op = cycles) : Row i (op, length, cycles) :=
  ⟨hop, hlength, by rw [Instr.base, hop, hcycles]⟩

/-- The base count of an instruction is the one its row prints. -/
theorem base_of_row {i : Instr} {e : Byte × Nat × Nat} (h : Row i e) : i.base = e.2.2 := h.2.2

/-- A reading instruction that ends in `SetNZ` of the byte `v`, with its row's base count and the page penalty (R156,
R157). -/
theorem setNZ_readFrame {i : Instr} {e : Byte × Nat × Nat} (hrow : Row i e) {o : Operand} {s u : State} {w v : Byte}
    (hv : w = v) (h : NoAccess (readOperand o s).st u) (hp : u.p = s.p) :
    let t := (u.setNZ w).setCycles (some (i.base + (readOperand o s).extra))
    NZ v t ∧ ReadFrame o [1, 7] s t ∧ t.cycles = some (e.2.2 + (resolve o true s).extra) := by
  refine ⟨hv ▸ nz_setNZ u w, readFrame_of_noAccess (keepsFlags_setNZ hp w) h, ?_⟩
  rw [State.setCycles_cycles, base_of_row hrow, readOperand_extra]

/-! ### Stores -/

theorem WritesOnly.regs_eq {l : List Nat} {s t : State} (h : WritesOnly l s t) (hsp : t.sp = s.sp) :
    regs t = regs s := by
  rw [regs, regs, h.a, h.x, h.y, hsp, h.pc]

/-- What a store does (R204-R206): the resolver's reads, then one write at the address it gave. -/
theorem storeOperand_effect (o : Operand) (v : Byte) (s : State) (n : Option Nat) :
    StoreEffect o v s ((storeOperand o v s).setCycles n) := by
  have hw := storeOperand_writesOnly o v s
  have hstores : Stores s (storeOperand o v s) (resolve o false s).ea v := fun h =>
    busWrite_read_same (by rw [intercepted_congr (resolve_readsOnly o false s).cfg, h]) v
  exact ⟨hw.regs_eq (storeOperand_sp o v s), hw.p, busWrite_bus _ _ v, hstores, hw.mem, hw.cfg, hw.diag, hw.resetDone⟩

end Sys2Proof.Machine
end

section
/-! Loads, stores and transfers (R200-R212). -/

namespace Sys2Proof.Machine

open Sys2Proof.Claims

/-! ### Encodings -/

theorem row_lda (o : ReadOp) : Row (.lda o) (encLda o) := by
  cases o <;> exact row_of_baseCycles rfl rfl rfl

theorem row_ldx (o : LdxOp) : Row (.ldx o) (encLdx o) := by
  cases o <;> exact row_of_baseCycles rfl rfl rfl

theorem row_ldy (o : LdyOp) : Row (.ldy o) (encLdy o) := by
  cases o <;> exact row_of_baseCycles rfl rfl rfl

theorem row_sta (o : StaOp) : Row (.sta o) (encSta o) := by
  cases o <;> exact row_of_baseCycles rfl rfl rfl

theorem row_stx (o : StxOp) : Row (.stx o) (encStx o) := by
  cases o <;> exact row_of_baseCycles rfl rfl rfl

theorem row_sty (o : StyOp) : Row (.sty o) (encSty o) := by
  cases o <;> exact row_of_baseCycles rfl rfl rfl

/-! ### The statements -/

/-- Settles O36: reading the operand leaves the registers and P, so the load's own update is all that changes them. -/
theorem loadsTakeTheOperandByte : Obligations.LoadsTakeTheOperandByte := by
  refine ⟨fun o s => ⟨row_lda o, _, rfl, ?lda⟩, fun o s => ⟨row_ldx o, _, rfl, ?ldx⟩,
    fun o s => ⟨row_ldy o, _, rfl, ?ldy⟩⟩
  case lda =>
    have h := readOperand_readsOnly o.operand s
    exact ⟨by simp [regs, readOperand_value, h.x, h.y, h.sp, h.pc],
      setNZ_readFrame (row_lda o) (readOperand_value o.operand s) (noAccess_setA _ _) h.p⟩
  case ldx =>
    have h := readOperand_readsOnly o.operand s
    exact ⟨by simp [regs, readOperand_value, h.a, h.y, h.sp, h.pc],
      setNZ_readFrame (row_ldx o) (readOperand_value o.operand s) (noAccess_setX _ _) h.p⟩
  case ldy =>
    have h := readOperand_readsOnly o.operand s
    exact ⟨by simp [regs, readOperand_value, h.a, h.x, h.sp, h.pc],
      setNZ_readFrame (row_ldy o) (readOperand_value o.operand s) (noAccess_setY _ _) h.p⟩

/-- Settles O37: a store is `storeOperand` of a register, with its row's base count. -/
theorem storesWriteTheEffectiveAddress : Obligations.StoresWriteTheEffectiveAddress :=
  ⟨fun o s => ⟨row_sta o, _, rfl, storeOperand_effect o.operand s.a s _, congrArg some (base_of_row (row_sta o))⟩,
    fun o s => ⟨row_stx o, _, rfl, storeOperand_effect o.operand s.x s _, congrArg some (base_of_row (row_stx o))⟩,
    fun o s => ⟨row_sty o, _, rfl, storeOperand_effect o.operand s.y s _, congrArg some (base_of_row (row_sty o))⟩⟩

/-- Settles O38: five transfers are a register update and `SetNZ`; TXS is an update of SP alone, where PHA then pushes. -/
theorem transfersCopyARegister : Obligations.TransfersCopyARegister := by
  intro s
  exact ⟨⟨rfl, _, rfl, rfl, setNZ_noAccess rfl (noAccess_setX s _) s.a⟩,
    ⟨rfl, _, rfl, rfl, setNZ_noAccess rfl (noAccess_setY s _) s.a⟩,
    ⟨rfl, _, rfl, rfl, setNZ_noAccess rfl (noAccess_setA s _) s.x⟩,
    ⟨rfl, _, rfl, rfl, setNZ_noAccess rfl (noAccess_setA s _) s.y⟩,
    ⟨rfl, _, rfl, rfl, setNZ_noAccess rfl (noAccess_setX s _) s.sp⟩,
    ⟨rfl, _, rfl, rfl, rfl, noAccess_setSp s s.x, rfl, _, rfl, rfl, push_bus _ s.a⟩⟩

end Sys2Proof.Machine
end

section
/-! The adder and the subtractor (R262-R265) as arithmetic of the operands' numbers. -/

namespace Sys2Proof.Machine

open Sys2Proof.Claims

/-! ### Bytes as signed numbers -/

theorem byte_msb_iff (v : Byte) : v.msb = true ↔ 128 ≤ v.toNat := by
  rw [BitVec.msb_eq_decide, decide_eq_true_iff]

theorem byte_msb_eq_iff (u v : Byte) : u.msb = v.msb ↔ (128 ≤ u.toNat ↔ 128 ≤ v.toNat) := by
  rw [Bool.eq_iff_iff, byte_msb_iff, byte_msb_iff]

/-- Two's complement: a byte with the sign bit set stands for its number less 256. -/
theorem byte_toInt (v : Byte) : v.toInt = if 128 ≤ v.toNat then (v.toNat : Int) - 256 else v.toNat := by
  simp only [BitVec.toInt_eq_msb_cond, byte_msb_iff]
  rfl

theorem byte_toInt_not (v : Byte) : (~~~v).toInt = -1 - v.toInt := by
  have := v.isLt
  rw [byte_toInt, byte_toInt, toNat_not]
  split <;> split <;> omega

theorem byte_msb_eq_not_iff (u v : Byte) : u.msb = (~~~v).msb ↔ u.msb ≠ v.msb := by
  simp [BitVec.msb_not, Bool.eq_not]

/-! ### The adder -/

theorem addC_r (a b : Byte) (cin : Bool) : (addC a b cin).r = BitVec.ofNat 8 (a.toNat + b.toNat + bitNat cin) := rfl

theorem addC_c_iff (a b : Byte) (cin : Bool) : (addC a b cin).c = true ↔ 255 < a.toNat + b.toNat + bitNat cin := by
  rw [addC_c, decide_eq_true_iff]

/-- The sign-mismatch test (R264): the operands have one sign and the result has the other. -/
theorem addC_v_iff_msb (a b : Byte) (cin : Bool) :
    (addC a b cin).v = true ↔ a.msb = b.msb ∧ (addC a b cin).r.msb ≠ a.msb := by
  have hv : (addC a b cin).v = ((a ^^^ (addC a b cin).r) &&& (b ^^^ (addC a b cin).r)).msb :=
    (BitVec.msb_eq_getLsbD_last _).symm
  rw [hv, BitVec.msb_and, BitVec.msb_xor, BitVec.msb_xor]
  cases a.msb <;> cases b.msb <;> cases (addC a b cin).r.msb <;> decide

/-- The sign-mismatch test finds just the sums that leave the range of two's complement. -/
theorem addC_v_iff_toInt (a b : Byte) (cin : Bool) :
    (addC a b cin).v = true ↔
      a.toInt + b.toInt + bitNat cin < -128 ∨ 127 < a.toInt + b.toInt + bitNat cin := by
  have ha := a.isLt
  have hb := b.isLt
  have hc := bitNat_le cin
  rw [addC_v_iff_msb, ne_eq, byte_msb_eq_iff, byte_msb_eq_iff, addC_r_toNat, byte_toInt, byte_toInt]
  split <;> split <;> omega

/-- Settles O34: result and carry are the sum's remainder and quotient by 256, and both readings of V agree. -/
theorem adderIsExact : Obligations.AdderIsExact := fun a b cin =>
  ⟨addC_r_toNat a b cin, addC_c_iff a b cin, addC_v_iff_msb a b cin, addC_v_iff_toInt a b cin⟩

/-! ### Subtraction -/

theorem subC_r_toNat (a m : Byte) (cin : Bool) :
    ((subC a m cin).r.toNat : Int) = ((a.toNat : Int) - m.toNat - (1 - bitNat cin)) % 256 := by
  have := m.isLt
  rw [subC, addC_r_toNat, toNat_not]
  omega

/-- The carry out of a subtraction means that no borrow occurred (R265). -/
theorem subC_c_iff (a m : Byte) (cin : Bool) :
    (subC a m cin).c = true ↔ 0 ≤ (a.toNat : Int) - m.toNat - (1 - bitNat cin) := by
  have := m.isLt
  rw [subC, addC_c_iff, toNat_not]
  omega

theorem subC_v_iff (a m : Byte) (cin : Bool) :
    (subC a m cin).v = true ↔
      a.toInt - m.toInt - (1 - bitNat cin) < -128 ∨ 127 < a.toInt - m.toInt - (1 - bitNat cin) := by
  rw [subC, addC_v_iff_toInt, byte_toInt_not]
  omega

/-- Settles O35: the one's complement of `m` is 255 - m as a number and -1 - m as a signed one. -/
theorem subtractionIsExact : Obligations.SubtractionIsExact := by
  intro a m cin
  have hmask : ~~~m &&& 0xFF = ~~~m := BitVec.and_allOnes
  exact ⟨congrArg (addC a · cin) hmask.symm, subC_r_toNat a m cin, subC_c_iff a m cin, subC_v_iff a m cin⟩

/-- Without a borrow the result is the difference of the bytes (R267). -/
theorem subC_true_r (a m : Byte) : (subC a m true).r = a - m := by
  have := m.isLt
  apply BitVec.eq_of_toNat_eq
  rw [subC, addC_r_toNat, toNat_not, BitVec.toNat_sub]
  change (a.toNat + (255 - m.toNat) + 1) % 256 = (256 - m.toNat + a.toNat) % 256
  omega

theorem subC_true_c_iff (a m : Byte) : (subC a m true).c = true ↔ m.toNat ≤ a.toNat := by
  rw [subC_c_iff, bitNat, if_pos rfl]
  omega

end Sys2Proof.Machine
end

section
/-! Arithmetic, compares, logic and BIT (R266-R278): each reads its operand and then writes flags, and A at most. -/

namespace Sys2Proof.Machine

open Sys2Proof.Claims

/-! ### Encodings and cycles -/

theorem row_adc (o : ReadOp) : Row (.adc o) (encAdc o) := by
  cases o <;> exact row_of_baseCycles rfl rfl rfl

theorem row_sbc (o : ReadOp) : Row (.sbc o) (encSbc o) := by
  cases o <;> exact row_of_baseCycles rfl rfl rfl

theorem row_cmp (o : ReadOp) : Row (.cmp o) (encCmp o) := by
  cases o <;> exact row_of_baseCycles rfl rfl rfl

theorem row_cpx (o : CpxOp) : Row (.cpx o) (encCpx o) := by
  cases o <;> exact row_of_baseCycles rfl rfl rfl

theorem row_cpy (o : CpxOp) : Row (.cpy o) (encCpy o) := by
  cases o <;> exact row_of_baseCycles rfl rfl rfl

theorem row_and (o : ReadOp) : Row (.and o) (encAnd o) := by
  cases o <;> exact row_of_baseCycles rfl rfl rfl

theorem row_ora (o : ReadOp) : Row (.ora o) (encOra o) := by
  cases o <;> exact row_of_baseCycles rfl rfl rfl

theorem row_eor (o : ReadOp) : Row (.eor o) (encEor o) := by
  cases o <;> exact row_of_baseCycles rfl rfl rfl

theorem row_bit (o : BitOp) : Row (.bit o) (encBit o) := by
  cases o <;> exact row_of_baseCycles rfl rfl rfl

/-- CPX and CPY have no form that pays the page penalty. -/
theorem cpxOp_extra (o : CpxOp) (s : State) : (resolve o.operand true s).extra = 0 := by
  cases o <;> rfl

theorem bitOp_extra (o : BitOp) (s : State) : (resolve o.operand true s).extra = 0 := by
  cases o <;> rfl

/-- The count of a reading instruction: its row's base count and the page penalty (R156, R157). -/
theorem readOperand_cycles {i : Instr} {e : Byte × Nat × Nat} (hrow : Row i e) (o : Operand) (s : State) :
    i.base + (readOperand o s).extra = e.2.2 + (resolve o true s).extra := by
  rw [base_of_row hrow, readOperand_extra]

/-- The count of a reading instruction in a form without page penalty. -/
theorem readOperand_cycles_of_extra {i : Instr} {e : Byte × Nat × Nat} (hrow : Row i e) {o : Operand} {s : State}
    (hextra : (resolve o true s).extra = 0) : i.base + (readOperand o s).extra = e.2.2 := by
  rw [readOperand_cycles hrow, hextra, Nat.add_zero]

/-! ### Frames -/

theorem ReadsOnly.regs_eq {s t : State} (h : ReadsOnly s t) : regs t = regs s := by
  rw [regs, regs, h.a, h.x, h.y, h.sp, h.pc]

/-- A reading instruction that, once it has its operand, writes registers and the flags listed and makes no access. -/
theorem readFrame_of_within {o : Operand} {l : List StatePart} {flags : List Nat} {s t : State}
    (h : Within l (readOperand o s).st t) (hl : ∀ k, .bit k ∈ l → k ∈ flags) (hmem : .mem ∉ l) (hdiag : .diag ∉ l)
    (hbus : t.bus = (readOperand o s).st.bus) : ReadFrame o flags s t := by
  refine readFrame_of_noAccess (fun k _ hk => ?_)
    ⟨hbus, fun k => congrArg (Memory.read · k) (h.same .mem hmem), h.cfg, h.same .diag hdiag, h.resetDone⟩
  exact ((readOperand_within s o).same _ List.not_mem_nil).trans (h.same (.bit k) fun hw => hk (hl k hw))

/-! ### ADC and SBC -/

theorem flagC_setSumFlags (s : State) (sum : Sum) : (s.setSumFlags sum).flagC = sum.c := by
  simp only [State.flagC, State.setSumFlags_eq, State.setP_p, getLsbD_setBit]
  rfl

theorem flagV_setSumFlags (s : State) (sum : Sum) : (s.setSumFlags sum).flagV = sum.v := by
  simp only [State.flagV, State.setSumFlags_eq, State.setP_p, getLsbD_setBit]
  rfl

/-- What adding the byte `b` to A with carry leaves (R270), where `o` is the operand read. ADC adds the operand byte and
SBC its complement (R265). -/
def AddEffect (o : Operand) (b : Byte) (s t : State) : Prop :=
  let sum := s.a.toNat + b.toNat + bitNat s.flagC
  regs t = (BitVec.ofNat 8 sum, s.x, s.y, s.sp, s.pc) ∧ (t.flagC = true ↔ 255 < sum) ∧
    (t.flagV = true ↔ s.a.msb = b.msb ∧ t.a.msb ≠ s.a.msb) ∧ NZ t.a t ∧ ReadFrame o [0, 1, 6, 7] s t

theorem AddEffect.setCycles {o : Operand} {b : Byte} {s t : State} (h : AddEffect o b s t) (n : Option Nat) :
    AddEffect o b s (t.setCycles n) := h

/-- The sum goes to A and the flags to P, at the state after the operand was read. -/
theorem addEffect_setSumFlags (o : Operand) (b : Byte) (s : State) :
    let m := readOperand o s
    let sum := addC m.st.a b m.st.flagC
    AddEffect o b s ((m.st.setA sum.r).setSumFlags sum) := by
  have h := readOperand_readsOnly o s
  have hin : addC (readOperand o s).st.a b (readOperand o s).st.flagC = addC s.a b s.flagC := by
    rw [State.flagC, h.a, h.p]
    rfl
  simp only [hin]
  have hw := (setA_within (readOperand o s).st (addC s.a b s.flagC).r).trans
    (setSumFlags_within _ (addC s.a b s.flagC))
  refine ⟨?regs, ?carry, ?overflow, nz_setNZ _ _, readFrame_of_within hw ?flags ?mem ?diag rfl⟩
  case regs => simp [regs, h.x, h.y, h.sp, h.pc, addC_r]
  case carry => exact (Bool.eq_iff_iff.mp (flagC_setSumFlags _ _)).trans (addC_c_iff s.a b s.flagC)
  case overflow => exact (Bool.eq_iff_iff.mp (flagV_setSumFlags _ _)).trans (addC_v_iff_msb s.a b s.flagC)
  case flags | mem | diag => simp

/-- Settles O39: ADC adds the operand byte, and SBC its complement, whose number is 255 - M and whose sign is not M's. -/
theorem addAndSubtractWithCarry : Obligations.AddAndSubtractWithCarry := by
  refine ⟨fun o s => ⟨row_adc o, _, rfl, ?adc⟩, fun o s => ⟨row_sbc o, _, rfl, ?sbc⟩⟩
  case adc =>
    rw [readOperand_value]
    obtain ⟨hregs, hc, hv, hnz, hframe⟩ := (addEffect_setSumFlags o.operand (operandByte o.operand s) s).setCycles _
    exact ⟨hregs, hc, hv, hnz, hframe, congrArg some (readOperand_cycles (row_adc o) o.operand s)⟩
  case sbc =>
    rw [readOperand_value, subC]
    obtain ⟨hregs, hc, hv, hnz, hframe⟩ :=
      (addEffect_setSumFlags o.operand (~~~operandByte o.operand s) s).setCycles _
    rw [toNat_not] at hregs hc
    rw [byte_msb_eq_not_iff] at hv
    exact ⟨hregs, hc, hv, hnz, hframe, congrArg some (readOperand_cycles (row_sbc o) o.operand s)⟩

/-! ### Compares -/

theorem flagC_compare (s : State) (reg m : Byte) : (s.compare reg m).flagC = (subC reg m true).c := by
  simp only [State.flagC, State.compare_eq, State.setP_p, getLsbD_setBit]
  rfl

theorem regs_compare (s : State) (reg m : Byte) : regs (s.compare reg m) = regs s := by
  simp [regs]

/-- Z and N after a compare describe the difference. -/
theorem nz_compare (s : State) (reg m : Byte) : NZ (reg - m) (s.compare reg m) := by
  rw [← subC_true_r]
  exact nz_setNZ _ _

theorem compareEffect_setCycles {o : Operand} {reg : Byte} {s t : State} (h : CompareEffect o reg s t)
    (n : Option Nat) : CompareEffect o reg s (t.setCycles n) := h

/-- A compare at the state after the operand was read (R267). -/
theorem compareEffect_compare (o : Operand) (reg : Byte) (s : State) :
    CompareEffect o reg s ((readOperand o s).st.compare reg (readOperand o s).value) := by
  rw [readOperand_value]
  obtain ⟨hz, hn⟩ := nz_compare (readOperand o s).st reg (operandByte o s)
  have hc := (Bool.eq_iff_iff.mp (flagC_compare (readOperand o s).st reg (operandByte o s))).trans
    (subC_true_c_iff reg (operandByte o s))
  have hw := compare_within (readOperand o s).st reg (operandByte o s)
  exact ⟨(regs_compare _ _ _).trans (readOperand_readsOnly o s).regs_eq, hc, hz.trans sub_eq_zero, hn,
    readFrame_of_within hw (by simp) (by simp) (by simp) rfl⟩

/-- Settles O40: the three compares are `State.compare` of A, X or Y with the operand byte. -/
theorem comparesSetFlagsOnly : Obligations.ComparesSetFlagsOnly := by
  refine ⟨fun o s => ⟨row_cmp o, _, rfl, ?cmp⟩, fun o s => ⟨row_cpx o, _, rfl, ?cpx⟩,
    fun o s => ⟨row_cpy o, _, rfl, ?cpy⟩⟩
  case cmp =>
    rw [(readOperand_readsOnly o.operand s).a]
    exact ⟨compareEffect_setCycles (compareEffect_compare o.operand s.a s) _,
      congrArg some (readOperand_cycles (row_cmp o) o.operand s)⟩
  case cpx =>
    rw [(readOperand_readsOnly o.operand s).x]
    exact ⟨compareEffect_setCycles (compareEffect_compare o.operand s.x s) _,
      congrArg some (readOperand_cycles_of_extra (row_cpx o) (cpxOp_extra o s))⟩
  case cpy =>
    rw [(readOperand_readsOnly o.operand s).y]
    exact ⟨compareEffect_setCycles (compareEffect_compare o.operand s.y s) _,
      congrArg some (readOperand_cycles_of_extra (row_cpy o) (cpxOp_extra o s))⟩

/-! ### Logic -/

/-- A logic instruction puts `f A M` into A and lets Z and N describe it (R268). -/
theorem logic_effect {i : Instr} {e : Byte × Nat × Nat} (hrow : Row i e) (o : Operand) (f : Byte → Byte → Byte)
    (s : State) :
    let m := readOperand o s
    let r := f s.a (operandByte o s)
    let w := f m.st.a m.value
    let t := ((m.st.setA w).setNZ w).setCycles (some (i.base + m.extra))
    (regs t = (r, s.x, s.y, s.sp, s.pc) ∧ NZ r t ∧ ReadFrame o [1, 7] s t) ∧
      t.cycles = some (e.2.2 + (resolve o true s).extra) := by
  have h := readOperand_readsOnly o s
  have hv : f (readOperand o s).st.a (readOperand o s).value = f s.a (operandByte o s) := by
    rw [h.a, readOperand_value]
  obtain ⟨hnz, hframe, hcycles⟩ := setNZ_readFrame hrow hv (noAccess_setA _ _) h.p
  exact ⟨⟨by simp [regs, hv, h.x, h.y, h.sp, h.pc], hnz, hframe⟩, hcycles⟩

/-- Settles O41: the three instructions differ in the operation on the two bytes only. -/
theorem logicOnTheAccumulator : Obligations.LogicOnTheAccumulator := by
  intro o s
  exact ⟨⟨row_and o, _, rfl, logic_effect (row_and o) o.operand (· &&& ·) s⟩,
    ⟨row_ora o, _, rfl, logic_effect (row_ora o) o.operand (· ||| ·) s⟩,
    ⟨row_eor o, _, rfl, logic_effect (row_eor o) o.operand (· ^^^ ·) s⟩⟩

/-! ### BIT -/

/-- BIT's three flag writes (R278). -/
def State.setZNV (s : State) (z n v : Bool) : State := ((s.setZ z).setN n).setV v

theorem regs_setZNV (s : State) (z n v : Bool) : regs (s.setZNV z n v) = regs s := by
  simp [regs, State.setZNV]

theorem flags_setZNV (s : State) (z n v : Bool) :
    (s.setZNV z n v).flagZ = z ∧ (s.setZNV z n v).flagN = n ∧ (s.setZNV z n v).flagV = v := by
  simp [State.setZNV, State.flagZ, State.flagN, State.flagV, -BitVec.getLsbD_eq_getElem]

theorem setZNV_within (s : State) (z n v : Bool) : Within [.bit 1, .bit 7, .bit 6] s (s.setZNV z n v) :=
  ((setBit_within s (by decide) z).trans (setBit_within _ (by decide) n)).trans (setBit_within _ (by decide) v)

/-- What BIT leaves (R278): Z of A and M, N and V the two top bits of M. -/
def BitEffect (o : Operand) (s t : State) : Prop :=
  let m := operandByte o s
  regs t = regs s ∧ (t.flagZ = true ↔ s.a &&& m = 0) ∧ t.flagN = m.getLsbD 7 ∧ t.flagV = m.getLsbD 6 ∧
    ReadFrame o [1, 6, 7] s t

theorem BitEffect.setCycles {o : Operand} {s t : State} (h : BitEffect o s t) (n : Option Nat) :
    BitEffect o s (t.setCycles n) := h

/-- BIT's flag writes at the state after the operand was read. -/
theorem bitEffect_setZNV (o : Operand) (s : State) :
    let m := readOperand o s
    BitEffect o s (m.st.setZNV (m.st.a &&& m.value == 0) (m.value.getLsbD 7) (m.value.getLsbD 6)) := by
  have h := readOperand_readsOnly o s
  simp only [h.a, readOperand_value]
  obtain ⟨hz, hn, hv⟩ := flags_setZNV (readOperand o s).st (s.a &&& operandByte o s == 0)
    ((operandByte o s).getLsbD 7) ((operandByte o s).getLsbD 6)
  exact ⟨(regs_setZNV _ _ _ _).trans h.regs_eq, (Bool.eq_iff_iff.mp hz).trans beq_iff_eq, hn, hv,
    readFrame_of_within (setZNV_within _ _ _ _) (by simp) (by simp) (by simp) rfl⟩

/-- Settles O42: BIT is its three flag writes, with its row's base count in both forms. -/
theorem bitTestsMemory : Obligations.BitTestsMemory := by
  refine fun o s => ⟨row_bit o, _, rfl, ?_⟩
  obtain ⟨hregs, hz, hn, hv, hframe⟩ := (bitEffect_setZNV o.operand s).setCycles _
  exact ⟨hregs, hz, hn, hv, hframe, congrArg some (readOperand_cycles_of_extra (row_bit o) (bitOp_extra o s))⟩

/-! ### The decimal flag -/

theorem operandByte_withBit (k : Nat) (b : Bool) (o : Operand) (s : State) :
    operandByte o (withBit k b s) = operandByte o s := by
  rw [← readOperand_value, readOperand_withBit, readOperand_value]

/-- Settles O23: ADC and SBC look at A, C and the operand byte, none of which is D; and an instruction that neither writes
D nor pushes P keeps D and does the same with another. -/
theorem decimalFlagSteersNothing : Obligations.DecimalFlagSteersNothing := by
  refine ⟨fun o s b => ⟨?adc, ?sbc⟩, fun i s b hm => ?other⟩
  case adc =>
    obtain ⟨-, t, ht, hregs, -⟩ := addAndSubtractWithCarry.1 o (withBit 3 b s)
    rw [operandByte_withBit, flagC_withBit b s (by decide)] at hregs
    exact ⟨t, ht, congrArg Prod.fst hregs⟩
  case sbc =>
    obtain ⟨-, t, ht, hregs, -⟩ := addAndSubtractWithCarry.2 o (withBit 3 b s)
    rw [operandByte_withBit, flagC_withBit b s (by decide)] at hregs
    exact ⟨t, ht, congrArg Prod.fst hregs⟩
  case other =>
    simp only [List.mem_cons, not_or, List.not_mem_nil, not_false_eq_true, and_true] at hm
    obtain ⟨hphp, hbrk, hplp, hrti, hcld, hsed⟩ := hm
    exact runs_withBit (by omega) b s (decimal_notMem_writes (by simp [*])) (by simp [*])

end Sys2Proof.Machine
end

section
/-! Shifts, increments and decrements (R320-R331): the read-modify-write and the shift unit they share, then the three
statements. -/

namespace Sys2Proof.Machine

open Sys2Proof.Claims

/-! ### Encodings -/

theorem row_asl (o : ShiftOp) : Row (.asl o) (encAsl o) := by
  cases o <;> exact row_of_baseCycles rfl rfl rfl

theorem row_lsr (o : ShiftOp) : Row (.lsr o) (encLsr o) := by
  cases o <;> exact row_of_baseCycles rfl rfl rfl

theorem row_rol (o : ShiftOp) : Row (.rol o) (encRol o) := by
  cases o <;> exact row_of_baseCycles rfl rfl rfl

theorem row_ror (o : ShiftOp) : Row (.ror o) (encRor o) := by
  cases o <;> exact row_of_baseCycles rfl rfl rfl

theorem row_inc (o : IncOp) : Row (.inc o) (encInc o) := by
  cases o <;> exact row_of_baseCycles rfl rfl rfl

theorem row_dec (o : IncOp) : Row (.dec o) (encDec o) := by
  cases o <;> exact row_of_baseCycles rfl rfl rfl

/-! ### Counting and shifting as arithmetic on numbers -/

theorem byte_add_one (v : Byte) : v + 1 = BitVec.ofNat 8 (v.toNat + 1) :=
  BitVec.eq_of_toNat_eq (byte_add_one_toNat v)

/-- One less is 255 more, modulo 256. -/
theorem byte_sub_one (v : Byte) : v - 1 = BitVec.ofNat 8 (v.toNat + 255) := by
  apply BitVec.eq_of_toNat_eq
  rw [BitVec.toNat_sub, BitVec.toNat_ofNat, Nat.add_comm]
  rfl

/-- A shift to the left doubles, and the bit that moves in takes the place of the units (R321). -/
theorem shiftL_r (v : Byte) (cin : Bool) : (shiftL v cin).r = BitVec.ofNat 8 (2 * v.toNat + bitNat cin) := by
  have hcin := bitNat_le cin
  have hwrap : v.toNat <<< 1 % 2 ^ 8 = (v.toNat % 128) <<< 1 := by
    rw [Nat.shiftLeft_eq, Nat.shiftLeft_eq]
    omega
  have hor : (v.toNat % 128) <<< 1 ||| bitNat cin = (v.toNat % 128) <<< 1 + bitNat cin :=
    (Nat.shiftLeft_add_eq_or_of_lt (by omega) _).symm
  have hin : (BitVec.ofNat 8 (bitNat cin)).toNat = bitNat cin := by
    cases cin <;> rfl
  apply BitVec.eq_of_toNat_eq
  rw [shiftL, BitVec.toNat_or, BitVec.toNat_shiftLeft, hin, hwrap, hor, Nat.shiftLeft_eq, BitVec.toNat_ofNat]
  omega

/-- A shift to the right halves, and the bit that moves in counts 128 (R321). -/
theorem shiftR_r (v : Byte) (cin : Bool) : (shiftR v cin).r = BitVec.ofNat 8 (v.toNat / 2 + 128 * bitNat cin) := by
  have hv := v.isLt
  have hcin := bitNat_le cin
  have hor : v.toNat >>> 1 ||| bitNat cin <<< 7 = bitNat cin <<< 7 + v.toNat >>> 1 := by
    rw [Nat.or_comm, Nat.shiftLeft_add_eq_or_of_lt (by omega)]
  have hin : (BitVec.ofNat 8 (bitNat cin) <<< 7).toNat = bitNat cin <<< 7 := by
    cases cin <;> rfl
  apply BitVec.eq_of_toNat_eq
  rw [shiftR, BitVec.toNat_or, BitVec.toNat_ushiftRight, hin, hor, Nat.shiftLeft_eq, Nat.shiftRight_eq_div_pow,
    BitVec.toNat_ofNat]
  omega

/-! ### The read-modify-write -/

theorem modifyOperand_bus (o : Operand) (f : Byte → Byte) (s : State) :
    let r := resolve o false s
    let v := r.st.answer r.ea
    (modifyOperand o f s).st.bus = r.st.bus ++ [.read r.ea v, .write r.ea (f v)] :=
  List.append_assoc _ [_] [_]

theorem modifyOperand_stores (o : Operand) (f : Byte → Byte) (s : State) :
    let r := resolve o false s
    Stores s (modifyOperand o f s).st r.ea (f (r.st.answer r.ea)) := fun h =>
  let r := resolve o false s
  busWrite_read_same (s := (busRead r.st r.ea).st)
    ((intercepted_congr (resolve_readsOnly o false s).cfg r.ea).trans h) (f (r.st.answer r.ea))

/-- A read-modify-write that then writes only P and the count (R320). -/
theorem modifyEffect_of_setP {o : Operand} {f : Byte → Byte} {flags : List Nat} {s t : State} {p : Byte}
    (ht : t = (modifyOperand o f s).st.setP p) (hnz : NZ (f (modifyOperand o f s).value) t)
    (hflags : KeepsFlags flags s t) (n : Option Nat) : ModifyEffect o f flags s (t.setCycles n) := by
  subst ht
  have hw := modifyOperand_writesOnly o f s
  exact ⟨hw.regs_eq (modifyOperand_sp o f s), modifyOperand_bus o f s, modifyOperand_stores o f s, hw.mem,
    ⟨hw.cfg, hw.diag, hw.resetDone⟩, hnz, hflags⟩

/-- A read-modify-write that ends in `SetNZ` of the byte it wrote: INC and DEC (R326, R327). -/
theorem modifyEffect_setNZ (o : Operand) (f : Byte → Byte) (s : State) (n : Option Nat) :
    let m := modifyOperand o f s
    ModifyEffect o f [1, 7] s ((m.st.setNZ (f m.value)).setCycles n) :=
  modifyEffect_of_setP (State.setNZ_eq _ _) (nz_setNZ _ _) (keepsFlags_setNZ (modifyOperand_writesOnly o f s).p _) n

/-! ### The flags of a shift -/

theorem flagC_setShiftFlags (s : State) (sh : Shifted) : (s.setShiftFlags sh).flagC = sh.cout := by
  simp only [State.flagC, State.setShiftFlags_eq, State.setP_p, getLsbD_setBit]
  rfl

theorem nz_setShiftFlags (s : State) (sh : Shifted) : NZ sh.r (s.setShiftFlags sh) := nz_setNZ _ _

theorem keepsFlags_setShiftFlags {s u : State} (hp : u.p = s.p) (sh : Shifted) :
    KeepsFlags [0, 1, 7] s (u.setShiftFlags sh) := by
  intro k _ hk
  simp only [List.mem_cons, List.not_mem_nil, or_false, not_or] at hk
  obtain ⟨h0, h1, h7⟩ := hk
  simp [h0, h1, h7, hp]

/-- What the four shifts share (R320, R321), in every form: the shift unit's result goes to A or memory, and its carry
to C. -/
theorem shiftEffect_shiftOperand {unit : Byte → Shifted} {f : Byte → Byte} {out : Byte → Bool}
    (hr : ∀ v, (unit v).r = f v) (hout : ∀ v, (unit v).cout = out v) (o : ShiftOp) (s : State) (n : Option Nat) :
    ShiftEffect o f out s ((shiftOperand o unit s).setCycles n) := by
  obtain rfl : (fun v => (unit v).r) = f := funext hr
  obtain rfl : (fun v => (unit v).cout) = out := funext hout
  unfold ShiftEffect shiftOperand
  cases o.operand with
  | none =>
    obtain ⟨hbus, hmem, hrest⟩ := noAccess_setA s (unit s.a).r
    exact ⟨rfl, hbus, hmem, hrest, nz_setShiftFlags _ _, flagC_setShiftFlags _ _, keepsFlags_setShiftFlags rfl _⟩
  | some m =>
    have hp := (modifyOperand_writesOnly m (fun v => (unit v).r) s).p
    exact ⟨modifyEffect_of_setP (State.setShiftFlags_eq _ _) (nz_setShiftFlags _ _) (keepsFlags_setShiftFlags hp _) n,
      flagC_setShiftFlags _ _⟩

/-! ### The statements -/

/-- Settles O43: the four shifts are `shiftOperand` of the shift unit to the left or right, with 0 or the old C moving
in. -/
theorem shiftsMoveOneBit : Obligations.ShiftsMoveOneBit := by
  intro o s
  exact ⟨⟨row_asl o, _, rfl, shiftEffect_shiftOperand (shiftL_r · false) (fun _ => rfl) o s _,
      congrArg some (base_of_row (row_asl o))⟩,
    ⟨row_lsr o, _, rfl, shiftEffect_shiftOperand (shiftR_r · false) (fun _ => rfl) o s _,
      congrArg some (base_of_row (row_lsr o))⟩,
    ⟨row_rol o, _, rfl, shiftEffect_shiftOperand (shiftL_r · s.flagC) (fun _ => rfl) o s _,
      congrArg some (base_of_row (row_rol o))⟩,
    ⟨row_ror o, _, rfl, shiftEffect_shiftOperand (shiftR_r · s.flagC) (fun _ => rfl) o s _,
      congrArg some (base_of_row (row_ror o))⟩⟩

/-- Settles O44: INC and DEC are one read-modify-write and `SetNZ`, with their row's base count. -/
theorem memoryCountsUpAndDown : Obligations.MemoryCountsUpAndDown := by
  intro o s
  simp only [← byte_add_one, ← byte_sub_one]
  exact ⟨⟨row_inc o, _, rfl, modifyEffect_setNZ o.operand (· + 1) s _, congrArg some (base_of_row (row_inc o))⟩,
    ⟨row_dec o, _, rfl, modifyEffect_setNZ o.operand (· - 1) s _, congrArg some (base_of_row (row_dec o))⟩⟩

/-- Settles O45: the four are an update of X or Y and `SetNZ` of the new value. -/
theorem indexRegistersCountUpAndDown : Obligations.IndexRegistersCountUpAndDown := by
  intro s
  simp only [← byte_add_one, ← byte_sub_one]
  exact ⟨⟨rfl, _, rfl, rfl, setNZ_noAccess rfl (noAccess_setX s _) (s.x + 1)⟩,
    ⟨rfl, _, rfl, rfl, setNZ_noAccess rfl (noAccess_setY s _) (s.y + 1)⟩,
    ⟨rfl, _, rfl, rfl, setNZ_noAccess rfl (noAccess_setX s _) (s.x - 1)⟩,
    ⟨rfl, _, rfl, rfl, setNZ_noAccess rfl (noAccess_setY s _) (s.y - 1)⟩⟩

end Sys2Proof.Machine
end

section
/-! Pushes and pulls in terms of the slots below and above SP (R380-R382): what each stores or answers, and which slots
differ. -/

namespace Sys2Proof.Machine

open Sys2Proof.Claims

/-! ### Slots -/

theorem slot_ne (s : State) {j k : Byte} (h : j ≠ k) : (slot s j).toNat ≠ (slot s k).toNat :=
  stackAddr_ne s.cfg.stackPage fun e => h (sub_right_inj.mp e)

/-- The slots above an SP that pushes lowered by `n` are the slots they stored to. -/
theorem slotUp_eq_slot {s t : State} {n : Byte} (hcfg : t.cfg = s.cfg) (hsp : t.sp = s.sp - n) (k : Byte) :
    slotUp t k = slot s (n - k) := by
  rw [slotUp, slot, hcfg, hsp, sub_add]

/-- Further up from an SP that pulls raised by `n`. -/
theorem slotUp_eq_slotUp {s t : State} {n : Byte} (hcfg : t.cfg = s.cfg) (hsp : t.sp = s.sp + n) (k : Byte) :
    slotUp t k = slotUp s (n + k) := by
  rw [slotUp, slotUp, hcfg, hsp, add_assoc]

/-- What a read may answer is a matter of memory and the parameters alone. -/
theorem answers_congr {s t : State} {a : Addr} {v : Byte} (hmem : t.mem = s.mem) (hcfg : t.cfg = s.cfg)
    (h : Answers t a v) : Answers s a v := fun hio =>
  hmem ▸ h ((intercepted_congr hcfg a).trans hio)

/-! ### Pushes -/

/-- A push after others stores its byte in the slot that SP came down to. -/
theorem stores_push_same {s t : State} {k : Byte} (hcfg : t.cfg = s.cfg) (hat : t.stackAddr = slot s k) (v : Byte) :
    Stores s (push t v) (slot s k) v := by
  rw [← hat]
  exact fun hio => push_stores ((intercepted_congr hcfg _).trans hio) v

/-- A push keeps what an earlier write left in another slot. -/
theorem stores_push_other {s t : State} {j k : Byte} {v : Byte} (h : Stores s t (slot s j) v)
    (hat : t.stackAddr = slot s k) (hne : j ≠ k) (w : Byte) : Stores s (push t w) (slot s j) v := fun hio =>
  ((push_writesOnly t w).mem _ (by rw [hat, List.mem_singleton]; exact slot_ne s hne)).trans (h hio)

theorem push16_bus_slot (s : State) (w : Addr) :
    (push16 s w).bus = s.bus ++ [BusEvent.write (slot s 0) (hiByte w), BusEvent.write (slot s 1) (loByte w)] := by
  rw [push16_bus, stackAddr_eq_slot]
  rfl

/-- `Push16` leaves its two bytes in the slots, the high byte in the upper one (R382). -/
theorem push16_stores (s : State) (w : Addr) :
    Stores s (push16 s w) (slot s 0) (hiByte w) ∧ Stores s (push16 s w) (slot s 1) (loByte w) := by
  have hhi := stores_push_same rfl (stackAddr_eq_slot s) (hiByte w)
  have hat := push_stackAddr s (hiByte w)
  exact ⟨stores_push_other hhi hat (by decide) (loByte w), stores_push_same (push_writesOnly s _).cfg hat (loByte w)⟩

/-- A byte pushed after a 16-bit value goes to the third slot, and the value's bytes stay in theirs. -/
theorem push16_push_stores (s : State) (w : Addr) (v : Byte) :
    Stores s (push (push16 s w) v) (slot s 0) (hiByte w) ∧ Stores s (push (push16 s w) v) (slot s 1) (loByte w) ∧
      Stores s (push (push16 s w) v) (slot s 2) v := by
  have hat := push16_stackAddr s w
  obtain ⟨hhi, hlo⟩ := push16_stores s w
  exact ⟨stores_push_other hhi hat (by decide) v, stores_push_other hlo hat (by decide) v,
    stores_push_same (push16_writesOnly s w).cfg hat v⟩

theorem push16_push_bus (s : State) (w : Addr) (v : Byte) :
    (push (push16 s w) v).bus =
      s.bus ++ [BusEvent.write (slot s 0) (hiByte w), BusEvent.write (slot s 1) (loByte w),
        BusEvent.write (slot s 2) v] := by
  rw [push_bus, push16_stackAddr, push16_bus_slot, List.append_assoc]
  rfl

end Sys2Proof.Machine
end

section
/-! The stack instructions PHA, PHP, PLA and PLP (R383-R386). -/

namespace Sys2Proof.Machine

open Sys2Proof.Claims

/-- Settles O46: both are one push, of A or of P with bits 5 and 4 set, and a count. -/
theorem pushesStoreThenDecrement : Obligations.PushesStoreThenDecrement := by
  intro s done
  have hdone (v : Byte) : done v ((push s v).setCycles (some 3)) := by
    have hw := push_writesOnly s v
    have hsp := push_sp s v
    have hbus : (push s v).bus = s.bus ++ [BusEvent.write (slot s 0) v] := stackAddr_eq_slot s ▸ push_bus s v
    have hstores := stores_push_same rfl (stackAddr_eq_slot s) v
    have hmem := push_sameMemoryBut s v
    generalize push s v = t at *
    exact ⟨by simp [regs, hw.a, hw.x, hw.y, hw.pc, hsp], hw.p, hbus, hstores, hmem,
      ⟨hw.cfg, hw.diag, hw.resetDone⟩, rfl⟩
  exact ⟨⟨rfl, _, rfl, hdone s.a⟩, rfl, _, rfl, pushedP_eq s ▸ hdone s.pushedP⟩

theorem noAccess_writeP (s : State) (v : Byte) : NoAccess s (s.writeP v) := ⟨rfl, fun _ => rfl, rfl, rfl, rfl⟩

/-- Settles O47: both are one pull and an update of A, N and Z, or of all of P. -/
theorem pullsIncrementThenLoad : Obligations.PullsIncrementThenLoad := by
  intro s v done
  have hbus : (pop s).st.bus = s.bus ++ [BusEvent.read (slotUp s 1) v] := pop_bus s
  have hdone {u : State} (hu : NoAccess (pop s).st u) : done (u.setCycles (some 4)) := by
    obtain ⟨hb, hm, hr⟩ := hu
    exact ⟨hb.trans hbus, hm, hr, rfl⟩
  exact ⟨⟨rfl, _, rfl, rfl, nz_setNZ _ v, keepsFlags_setNZ rfl v, hdone (noAccess_setA (pop s).st v)⟩,
    rfl, _, rfl, rfl, rfl, hdone (noAccess_writeP (pop s).st v)⟩

end Sys2Proof.Machine
end

section
/-! Jumps, calls and returns, the trap and the return from it (R387-R391). -/

namespace Sys2Proof.Machine

open Sys2Proof.Claims

/-! ### Jumps, calls, returns -/

theorem row_jmp (o : JmpOp) : Row (.jmp o) (encJmp o) := by
  cases o <;> exact row_of_baseCycles rfl rfl rfl

/-- Settles O49: JMP sets PC to what the resolver gives, and IND's pointer has the high byte of its own page. -/
theorem jumpsGoToTheTarget : Obligations.JumpsGoToTheTarget := by
  intro s a done
  have hdone {t : State} (h : ReadsOnly s t) (target : Addr) (n : Option Nat) : done ((t.setPc target).setCycles n) :=
    ⟨h.a, h.x, h.y, h.sp, h.p, fun k => congrArg (Memory.read · k) h.mem, h.cfg, h.diag, h.resetDone⟩
  have habs := row_jmp (.abs a)
  have hind := row_jmp (.ind a)
  obtain ⟨-, hpointer⟩ := indirectPointerStaysInItsPage
  obtain ⟨-, -, lo, hi, hbus, hlo, hhi, hea, -⟩ := hpointer s false a
  exact ⟨⟨habs, _, rfl, rfl, rfl, congrArg some (base_of_row habs), hdone (ReadsOnly.refl s) _ _⟩,
    hind, _, rfl, lo, hi, hea, hbus, hlo, hhi, congrArg some (base_of_row hind),
    hdone (resolve_readsOnly (.ind a) false s) _ _⟩

theorem exec_jsr (a : Addr) (s : State) :
    exec (.jsr a) s = .next (((push16 s (s.pc - 1)).setPc a).setCycles (some 6)) := rfl

/-- Settles O50: JSR is a push of PC - 1 and a jump. -/
theorem jsrPushesItsLastByteAddress : Obligations.JsrPushesItsLastByteAddress := by
  intro s a
  have hw := push16_writesOnly s (s.pc - 1)
  have hsp := (push16_sp s (s.pc - 1)).trans (sub_one_sub_one s.sp)
  have hbus := push16_bus_slot s (s.pc - 1)
  have hmem := push16_sameMemoryBut s (s.pc - 1)
  obtain ⟨hhi, hlo⟩ := push16_stores s (s.pc - 1)
  refine ⟨⟨rfl, rfl⟩, _, exec_jsr a s, ?_⟩
  generalize push16 s (s.pc - 1) = t at *
  exact ⟨by simp [regs, hw.a, hw.x, hw.y, hsp], hw.p, hbus, hhi, hlo, hmem,
    ⟨hw.cfg, hw.diag, hw.resetDone⟩, rfl⟩

/-- Settles O51: RTS is a pull of two bytes and a jump one past them. -/
theorem rtsReturnsPastThePoppedAddress : Obligations.RtsReturnsPastThePoppedAddress := by
  intro s
  have hr := pop16_readsOnly s
  obtain ⟨lo, hi, hvalue, hbus, hlo, hhi⟩ := pop16_spec s
  refine ⟨rfl, ((pop16 s).st.setPc ((pop16 s).value + 1)).setCycles (some 6), rfl, lo, hi, ?_⟩
  generalize pop16 s = g at *
  exact ⟨by simp [regs, hr.a, hr.x, hr.y, hr.sp, hvalue], hr.p, hbus, hlo, hhi,
    fun k => congrArg (Memory.read · k) hr.mem, ⟨hr.cfg, hr.diag, hr.resetDone⟩, rfl⟩

/-- Settles O54: RTS pulls from the two slots that JSR pushed to, so it finds JSR's own last byte's address. -/
theorem rtsUndoesJsr : Obligations.RtsUndoesJsr := by
  intro s a hio0 hio1
  obtain ⟨-, t, ht, htregs, htp, -, hhi, hlo, -, ⟨hcfg, -⟩, -⟩ := jsrPushesItsLastByteAddress s a
  obtain ⟨-, u, hu, lo, hi, huregs, hup, -, hanslo, hanshi, -⟩ := rtsReturnsPastThePoppedAddress t
  simp only [regs, Prod.mk.injEq] at htregs huregs
  obtain ⟨-, -, -, htsp, -⟩ := htregs
  obtain ⟨-, -, -, husp, hupc⟩ := huregs
  have hslot0 : slotUp t 2 = slot s 0 := slotUp_eq_slot hcfg htsp 2
  have hslot1 : slotUp t 1 = slot s 1 := slotUp_eq_slot hcfg htsp 1
  rw [hslot0] at hanshi
  rw [hslot1] at hanslo
  have hret : word hi lo = s.pc - 1 := by
    rw [hanshi ((intercepted_congr hcfg _).trans hio0), hanslo ((intercepted_congr hcfg _).trans hio1),
      hhi hio0, hlo hio1, word_hiByte_loByte]
  exact ⟨t, u, ht, hu, by rw [hupc, hret, sub_add_cancel], by rw [husp, htsp, sub_add_cancel], hup.trans htp⟩

/-! ### The trap -/

/-- What returning from the trap pulls (R390, R530): P, and the address it goes to, low byte first. -/
theorem returnFromTrap_pulls (s : State) :
    ∃ lo hi, (returnFromTrap s).sp = s.sp + 3 ∧ (returnFromTrap s).pc = word hi lo ∧
      (returnFromTrap s).bus =
        s.bus ++ [BusEvent.read (slotUp s 1) (pop s).value, BusEvent.read (slotUp s 2) lo,
          BusEvent.read (slotUp s 3) hi] ∧
      Answers s (slotUp s 2) lo ∧ Answers s (slotUp s 3) hi := by
  have hr := pop_readsOnly s
  have hsp := pop_sp s
  have hbus := pop_bus s
  simp only [returnFromTrap]
  generalize pop s = g at *
  have hmem : (g.st.writeP g.value).mem = s.mem := hr.mem
  have hcfg : (g.st.writeP g.value).cfg = s.cfg := hr.cfg
  replace hsp : (g.st.writeP g.value).sp = s.sp + 1 := hsp
  replace hbus : (g.st.writeP g.value).bus = s.bus ++ [BusEvent.read (slotUp s 1) g.value] := hbus
  generalize g.st.writeP g.value = t at *
  obtain ⟨lo, hi, hvalue, hbus16, hlo, hhi⟩ := pop16_spec t
  have hslot2 : slotUp t 1 = slotUp s 2 := slotUp_eq_slotUp hcfg hsp 1
  have hslot3 : slotUp t 2 = slotUp s 3 := slotUp_eq_slotUp hcfg hsp 2
  rw [← hslot2, ← hslot3]
  refine ⟨lo, hi, (pop16_readsOnly t).sp.trans ?sp, hvalue, hbus16.trans ?bus, answers_congr hmem hcfg hlo,
    answers_congr hmem hcfg hhi⟩
  case sp =>
    rw [State.setSp_sp, hsp]
    exact add_assoc s.sp 1 2
  case bus =>
    rw [hbus, List.append_assoc]
    rfl

/-- Settles O52: the three pulls of RTI, P's byte among them, are the trap return's. -/
theorem rtiRestoresStatusThenPc : Obligations.RtiRestoresStatusThenPc := by
  intro s
  obtain ⟨lo, hi, hsp, hpc, hbus, hlo, hhi⟩ := returnFromTrap_pulls s
  obtain ⟨ha, hx, hy, hp, hmem, hcfg, hdiag, hreset⟩ := returnFromTrap_frame s
  have hpop : Answers s (slotUp s 1) (pop s).value := pop_default
  refine ⟨rfl, (returnFromTrap s).setCycles (some 6), rfl, (pop s).value, lo, hi, ?_⟩
  generalize returnFromTrap s = t at *
  exact ⟨by simp [regs, ha, hx, hy, hsp, hpc], hp, hbus, hpop, hlo, hhi, fun k => congrArg (Memory.read · k) hmem,
    ⟨hcfg, hdiag, hreset⟩, rfl⟩

/-- What the trap's pushes leave in the three slots: the return address, and P with bits 5 and 4 set (R391). -/
theorem enterTrap_stores (s : State) (ret vector : Addr) :
    Stores s (enterTrap s ret vector) (slot s 0) (hiByte ret) ∧
      Stores s (enterTrap s ret vector) (slot s 1) (loByte ret) ∧
      Stores s (enterTrap s ret vector) (slot s 2) (s.p ||| 0x30) := by
  obtain ⟨-, -, -, -, -, -, -, -, -, hmem⟩ := enterTrap_frame s ret vector
  rw [pushedP_eq, (push16_writesOnly s ret).p] at hmem
  simp only [Stores, hmem]
  exact push16_push_stores s ret (s.p ||| 0x30)

/-- After its pushes the trap sets I and jumps through the vector, low byte first (R391). -/
theorem enterTrap_vector (s : State) (ret vector : Addr) :
    ∃ lo hi, (enterTrap s ret vector).pc = word hi lo ∧
      (enterTrap s ret vector).bus =
        s.bus ++ [BusEvent.write (slot s 0) (hiByte ret), BusEvent.write (slot s 1) (loByte ret),
          BusEvent.write (slot s 2) (s.p ||| 0x30), BusEvent.read vector lo, BusEvent.read (vector + 1) hi] ∧
      Answers (enterTrap s ret vector) vector lo ∧ Answers (enterTrap s ret vector) (vector + 1) hi := by
  have hpushes := push16_push_bus s ret (s.p ||| 0x30)
  simp only [enterTrap, pushedP_eq, (push16_writesOnly s ret).p]
  generalize push (push16 s ret) (s.p ||| 0x30) = u at *
  have hr := read16_readsOnly (u.setI true) vector
  obtain ⟨lo, hi, hvalue, hbus, hlo, hhi⟩ := read16_spec (u.setI true) vector
  generalize read16 (u.setI true) vector = g at *
  refine ⟨lo, hi, hvalue, hbus.trans ?bus, answers_congr hr.mem.symm hr.cfg.symm hlo,
    answers_congr hr.mem.symm hr.cfg.symm hhi⟩
  rw [State.setI_eq, State.setP_bus, hpushes, List.append_assoc]
  rfl

/-- Settles O53: BRK takes the trap with PC + 1 as the return address, and the trap writes no bit of P but I. -/
theorem brkTakesTheTrap : Obligations.BrkTakesTheTrap := by
  intro s
  obtain ⟨lo, hi, hpc, hbus, hlo, hhi⟩ := enterTrap_vector s (s.pc + 1) s.cfg.irqVector
  obtain ⟨ha, hx, hy, hsp, hp, hcfg, hdiag, hreset, -, -⟩ := enterTrap_frame s (s.pc + 1) s.cfg.irqVector
  obtain ⟨h0, h1, h2⟩ := enterTrap_stores s (s.pc + 1) s.cfg.irqVector
  have hmem := enterTrap_sameMemoryBut s (s.pc + 1) s.cfg.irqVector
  refine ⟨rfl, (enterTrap s (s.pc + 1) s.cfg.irqVector).setCycles (some 7), rfl, lo, hi, ?_⟩
  generalize enterTrap s (s.pc + 1) s.cfg.irqVector = t at *
  replace hsp : t.sp = s.sp - 3 := hsp.trans (sub_sub s.sp 2 1)
  refine ⟨by simp [regs, ha, hx, hy, hsp, hpc], ?flagI, ?keeps, hbus, hlo, hhi, h0, h1, h2, hmem,
    ⟨hcfg, hdiag, hreset⟩, rfl⟩
  case flagI => simp [State.flagI, hp]
  case keeps =>
    intro k _ hk
    have hk2 : k ≠ 2 := by simpa using hk
    simp [hp, hk2]

end Sys2Proof.Machine
end

section
/-! The branches (R392-R401). -/

namespace Sys2Proof.Machine

open Sys2Proof.Claims

/-- A branch whose condition holds goes to the target, in 3 cycles or, into another page, 4 (R393). -/
theorem branch_taken (d : Byte) (s : State) :
    branch true d s =
      let target := BitVec.ofInt 16 (s.pc.toNat + d.toInt)
      .next ((s.setPc target).setCycles (some (if page s.pc ≠ page target then 4 else 3))) := by
  simp only [branch, resolve, add_sext16, cross_iff, if_true]
  split <;> rfl

/-- A branch changes PC and the count only, by its condition (R393). -/
theorem branch_effect {taken : Bool} {condition : Prop} (h : taken = true ↔ condition) (d : Byte) (s : State) :
    ∃ t, branch taken d s = .next t ∧ BranchEffect condition d s t := by
  cases taken with
  | false =>
    have hc : ¬ condition := h.not.mp Bool.false_ne_true
    exact ⟨_, rfl, ⟨rfl, rfl, rfl, rfl, rfl, rfl, fun _ => rfl, rfl, rfl, rfl⟩, fun k => absurd k hc,
      fun _ => ⟨rfl, rfl⟩⟩
  | true =>
    have hc : condition := h.mp rfl
    exact ⟨_, branch_taken d s, ⟨rfl, rfl, rfl, rfl, rfl, rfl, fun _ => rfl, rfl, rfl, rfl⟩,
      fun _ => ⟨rfl, fun hx => congrArg some (if_pos hx), fun hx => congrArg some (if_neg hx)⟩, fun k => absurd hc k⟩

/-- Settles O56: each branch is `branch` of one flag or of its negation. -/
theorem branchesFollowTheirFlag : Obligations.BranchesFollowTheirFlag := by
  intro d s
  have hclear (b : Bool) : (!b) = true ↔ b = false := iff_of_eq (Bool.not_eq_true' b)
  exact ⟨⟨rfl, branch_effect (hclear _) d s⟩, ⟨rfl, branch_effect Iff.rfl d s⟩, ⟨rfl, branch_effect (hclear _) d s⟩,
    ⟨rfl, branch_effect Iff.rfl d s⟩, ⟨rfl, branch_effect (hclear _) d s⟩, ⟨rfl, branch_effect Iff.rfl d s⟩,
    ⟨rfl, branch_effect (hclear _) d s⟩, ⟨rfl, branch_effect Iff.rfl d s⟩⟩

end Sys2Proof.Machine
end

section
/-! Flag instructions, NOP and the undefined opcodes (R460-R471). -/

namespace Sys2Proof.Machine

open Sys2Proof.Claims

/-! ### Flag instructions -/

/-- A write of bit `k` of P in two cycles is all that a flag instruction does (R460-R466). -/
theorem flagEffect_setBit {k : Nat} (hk : k < 8) (b : Bool) (s : State) :
    FlagEffect k b s ((s.setP (setBit s.p k b)).setCycles (some 2)) := by
  refine ⟨?bit, ?keeps, rfl, ⟨rfl, fun _ => rfl, rfl, rfl, rfl⟩, rfl⟩
  case bit => rw [State.setCycles_p, State.setP_p, getLsbD_setBit, if_pos rfl, decide_eq_true hk, Bool.true_and]
  case keeps =>
    intro j _ hj
    have hjk : j ≠ k := by simpa using hj
    simp [hjk]

/-- Settles O57: each flag instruction writes its one bit of P, and NOP only reports its cycles. -/
theorem flagInstructionsWriteOneBit : Obligations.FlagInstructionsWriteOneBit := by
  intro s
  exact ⟨⟨rfl, _, rfl, flagEffect_setBit (by decide) _ s⟩, ⟨rfl, _, rfl, flagEffect_setBit (by decide) _ s⟩,
    ⟨rfl, _, rfl, flagEffect_setBit (by decide) _ s⟩, ⟨rfl, _, rfl, flagEffect_setBit (by decide) _ s⟩,
    ⟨rfl, _, rfl, flagEffect_setBit (by decide) _ s⟩, ⟨rfl, _, rfl, flagEffect_setBit (by decide) _ s⟩,
    ⟨rfl, _, rfl, flagEffect_setBit (by decide) _ s⟩, rfl, _, rfl, rfl, rfl, ⟨rfl, fun _ => rfl, rfl, rfl, rfl⟩, rfl⟩

/-! ### Undefined opcodes -/

/-- The state after a step at the undefined opcode byte `op`: the byte is fetched, the event emitted, the charge made
(R470). -/
def afterUndefined (op : Byte) (s : State) : State :=
  ((fetch8 (beginStep s)).st.setDiag (s.diag ++ [.undefinedOpcode s.pc op])).setCycles (some s.cfg.undefCycles)

/-- A step at an undefined opcode byte, intercepted or not: the decoder reads `undef` from it whatever the next two bytes
are, and after the fetch the opcode's address is PC - 1. -/
theorem step_eq_afterUndefined {s : State} {op : Byte} (hop : op ∈ undefinedOpcodes) (hat : s.answer s.pc = op)
    (hr : s.resetDone = true) : step s = .next (afterUndefined op s) := by
  subst hat
  obtain ⟨-, hlisted⟩ :=
    undefinedBytesAreThoseListed (s.answer s.pc) (fetchByte 1 (beginStep s)) (fetchByte 2 (beginStep s)) []
  have hstep := step_of_decode (i := .undef (s.answer s.pc)) hr (hlisted.mp hop)
  have hpc : (fetch8 (beginStep s)).st.pc - 1 = s.pc := add_sub_cancel_right s.pc 1
  rw [hstep, afterUndefined, ← hpc]
  rfl

/-- The step leaves the registers but PC, which is one further. -/
theorem regs_afterUndefined (op : Byte) (s : State) :
    regs (afterUndefined op s) = (s.a, s.x, s.y, s.sp, s.pc + 1) :=
  (fetch8_readsOnly (beginStep s)).regs_eq

section
variable (op : Byte) (s : State)

@[simp] theorem afterUndefined_p : (afterUndefined op s).p = s.p := by simp [afterUndefined, beginStep]

@[simp] theorem afterUndefined_mem : (afterUndefined op s).mem = s.mem := by simp [afterUndefined, beginStep]

@[simp] theorem afterUndefined_cfg : (afterUndefined op s).cfg = s.cfg := by simp [afterUndefined, beginStep]

@[simp] theorem afterUndefined_bus : (afterUndefined op s).bus = [.read s.pc (s.answer s.pc)] := rfl

@[simp] theorem afterUndefined_diag : (afterUndefined op s).diag = s.diag ++ [.undefinedOpcode s.pc op] := rfl

@[simp] theorem afterUndefined_cycles : (afterUndefined op s).cycles = some s.cfg.undefCycles := rfl

@[simp] theorem afterUndefined_resetDone : (afterUndefined op s).resetDone = s.resetDone := by
  simp [afterUndefined, beginStep]

end

/-- Settles O58: the step ends in `afterUndefined`, whose parts the lemmas above give. -/
theorem undefinedOpcodeStep : Obligations.UndefinedOpcodeStep := by
  intro s op hop hat hr
  refine ⟨⟨_, rfl, rfl, rfl, rfl⟩, afterUndefined op s, step_eq_afterUndefined hop hat hr, regs_afterUndefined op s,
    afterUndefined_p op s, afterUndefined_mem op s, afterUndefined_cfg op s, ?bus, afterUndefined_diag op s,
    afterUndefined_cycles op s⟩
  case bus => rw [afterUndefined_bus, hat]

theorem run_succ {s t : State} (h : step s = .next t) (n : Nat) : core.run (n + 1) s = core.run n t := by
  simp only [Host.Core.run, show core.step s = .next t from h]

theorem add_one_add_ofNat (a : Addr) (n : Nat) : a + 1 + BitVec.ofNat 16 n = a + BitVec.ofNat 16 (n + 1) := by
  rw [Nat.add_comm n 1, BitVec.ofNat_add, ← BitVec.add_assoc]
  rfl

/-- Settles O59, by induction on the number of bytes: the first step leaves memory and the parameters, so the bytes after
it are still undefined and off IO_ADDRS. -/
theorem undefinedBytesAreWalkedThrough : Obligations.UndefinedBytesAreWalkedThrough := by
  intro n
  induction n with
  | zero =>
    intro s _ _
    exact ⟨s, rfl, congrArg (fun pc => (s.a, s.x, s.y, s.sp, pc)) (BitVec.add_zero s.pc).symm, rfl, rfl, [],
      (List.append_nil _).symm, rfl⟩
  | succ n ih =>
    intro s hr hbytes
    obtain ⟨hio, hop⟩ := hbytes 0 n.succ_pos
    rw [show s.pc + BitVec.ofNat 16 0 = s.pc from BitVec.add_zero s.pc] at hio hop
    have hstep := step_eq_afterUndefined hop (answer_default hio) hr
    generalize s.mem.read s.pc.toNat = op at hop hstep
    obtain ⟨ha, hx, hy, hsp, hpc⟩ : _ ∧ _ ∧ _ ∧ _ ∧ _ := by
      simpa only [regs, Prod.mk.injEq] using regs_afterUndefined op s
    have hrest (k : Nat) (hk : k < n) :
        (afterUndefined op s).intercepted ((afterUndefined op s).pc + BitVec.ofNat 16 k) = false ∧
          (afterUndefined op s).mem.read ((afterUndefined op s).pc + BitVec.ofNat 16 k).toNat ∈ undefinedOpcodes := by
      rw [intercepted_congr (afterUndefined_cfg op s), afterUndefined_mem, hpc, add_one_add_ofNat]
      exact hbytes (k + 1) (Nat.succ_lt_succ hk)
    obtain ⟨t, hrun, hregs, hp, hmem, l, hdiag, hl⟩ := ih _ ((afterUndefined_resetDone op s).trans hr) hrest
    rw [ha, hx, hy, hsp, hpc, add_one_add_ofNat] at hregs
    rw [afterUndefined_diag, List.append_assoc] at hdiag
    exact ⟨t, (run_succ hstep n).trans hrun, hregs, hp.trans (afterUndefined_p op s),
      hmem.trans (afterUndefined_mem op s), _, hdiag, congrArg Nat.succ hl⟩

end Sys2Proof.Machine
end

section
/-! What the host does between steps (R511): steps, resets and placed bytes keep canonical memory. -/

namespace Sys2Proof.Machine

open Sys2Proof.Claims

theorem setBus_within (s : State) (l : List BusEvent) : Within [] s (s.setBus l) :=
  ⟨fun f _ => by cases f <;> rfl, rfl, rfl, id, id⟩

theorem fetchN_within (n : Nat) (s : State) : Within [.pc] s (fetchN n s) :=
  (setPc_within s _).trans (fetchN_readsOnly n s).within

/-- A step that completes writes PC, by its fetch, and the parts of the instruction it finds. -/
theorem step_within {s t : State} (h : step s = .next t) :
    Within (.pc :: writes (fetchInstr (beginStep s)).instr) s t := by
  cases hr : s.resetDone with
  | false => simp [step, hr] at h
  | true =>
    have hf := (setBus_within s []).trans
      (fetchN_within (encode (fetchInstr (beginStep s)).instr).length (beginStep s))
    obtain ⟨u, hu, hw⟩ := exec_within (fetchInstr (beginStep s)).instr _
    rw [step_eq hr, hu, Host.Outcome.next.injEq] at h
    exact h ▸ hf.trans hw

theorem performReset_mem (s : State) : (performReset s).mem = s.mem := rfl

theorem performReset_p (s : State) : (performReset s).p = s.cfg.resetP ||| 0x20 := rfl

/-- RESET leaves memory alone and ORs bit 5 into the P it loads (R26, R560). -/
theorem performReset_inv {s : State} (h : s.mem.wf) : (performReset s).Inv :=
  ⟨performReset_mem s ▸ h, by simp [performReset_p]⟩

/-- Settles O12: a step writes memory by stores and pushes only, a RESET does not write it, and a placed byte is a write
inside the address space. -/
theorem hostActsKeepInv : Obligations.HostActsKeepInv := by
  intro act s t h hwf
  cases act with
  | step =>
    have hw := step_within h
    exact ⟨hw.wf hwf, nofun, hw.inv⟩
  | reset =>
    cases h
    have hinv := performReset_inv hwf
    exact ⟨hinv.1, fun _ => hinv, fun _ => hinv⟩
  | poke a v =>
    cases h
    have hmem : (s.setMem (s.mem.write a.toNat v)).mem.wf := Memory.write_addr_wf hwf a v
    exact ⟨hmem, nofun, fun hs => ⟨hmem, hs.2⟩⟩

end Sys2Proof.Machine
end

section
/-! The trap and the return from it (R391, R530): RTI pulls what BRK pushed. -/

namespace Sys2Proof.Machine

open Sys2Proof.Claims

/-- A read off IO_ADDRS answers the byte that an earlier write left at its address (R63, R77). -/
theorem answers_eq_of_stores {s t : State} {a : Addr} {v w : Byte} (hcfg : t.cfg = s.cfg)
    (hio : s.intercepted a = false) (hstores : Stores s t a w) (hanswers : Answers t a v) : v = w :=
  (hanswers ((intercepted_congr hcfg a).trans hio)).trans (hstores hio)

/-- P as pushed and pulled again: B and the unused bit are 1, and the flags are those of P (R25, R391). -/
theorem getLsbD_or_break_unused (v : Byte) {k : Nat} (hk : k < 8) :
    (v ||| 0x30 ||| 0x20).getLsbD k = (decide (k ∈ [4, 5]) || v.getLsbD k) := by
  interval_cases k <;> simp

/-- Settles O55: RTI pulls from the three slots that BRK pushed to, so it finds P with B and bit 5 set, and PC + 1. -/
theorem rtiUndoesBrk : Obligations.RtiUndoesBrk := by
  intro s hio
  obtain ⟨-, t, ht, _, _, htregs, -, -, -, -, -, hret_hi, hret_lo, hpushed, -, ⟨hcfg, -⟩, -⟩ :=
    brkTakesTheTrap s
  obtain ⟨-, u, hu, p, lo, hi, huregs, hup, -, hp, hlo, hhi, -⟩ := rtiRestoresStatusThenPc t
  simp only [regs, Prod.mk.injEq] at htregs huregs
  obtain ⟨-, -, -, htsp, -⟩ := htregs
  obtain ⟨-, -, -, husp, hupc⟩ := huregs
  have hslot2 : slotUp t 1 = slot s 2 := slotUp_eq_slot hcfg htsp 1
  have hslot1 : slotUp t 2 = slot s 1 := slotUp_eq_slot hcfg htsp 2
  have hslot0 : slotUp t 3 = slot s 0 := slotUp_eq_slot hcfg htsp 3
  rw [hslot2] at hp
  rw [hslot1] at hlo
  rw [hslot0] at hhi
  have hpulled := answers_eq_of_stores hcfg (hio 2 (by decide)) hpushed hp
  have hret : word hi lo = s.pc + 1 := by
    rw [answers_eq_of_stores hcfg (hio 0 (by decide)) hret_hi hhi,
      answers_eq_of_stores hcfg (hio 1 (by decide)) hret_lo hlo, word_hiByte_loByte]
  have hbits (k : Nat) (hk : k < 8) : u.p.getLsbD k = (decide (k ∈ [4, 5]) || s.p.getLsbD k) := by
    rw [hup, hpulled, getLsbD_or_break_unused s.p hk]
  refine ⟨t, u, ht, hu, hupc.trans hret, by rw [husp, htsp, sub_add_cancel], ?flags, hbits 4 (by decide),
    hbits 5 (by decide)⟩
  case flags =>
    intro k hk hne
    rw [hbits k hk, decide_eq_false hne, Bool.false_or]

end Sys2Proof.Machine
end

section
/-! Cycle counts (R590-R592): an instruction reports its row's base count and at most what the row's class adds. -/

namespace Sys2Proof.Machine

open Sys2Proof.Claims

/-- The most that a row's class adds to its base count (R156, R393). -/
def maxExtra : ExtraCycles → Nat
  | .none => 0
  | .page => 1
  | .branch => 2

/-- `t` shows a count of the instruction `i`: its base count and at most what its row's class adds (R592). -/
def ReportsCycles (i : Instr) (t : State) : Prop := ∃ k ≤ maxExtra i.tableRow.extra, t.cycles = some (i.base + k)

/-- The page penalty is at most what the row of a reading instruction allows: a form that can cross a page has the class
`page`, and every other form pays nothing (R156, R157). -/
theorem resolve_extra_le {i : Instr} {o : Operand} (ho : i.operand = some o)
    (hm : i.mnemonic ∉ [Mnemonic.sta, .asl, .lsr, .rol, .ror, .inc, .dec]) (s : State) :
    (resolve o true s).extra ≤ maxExtra i.tableRow.extra := by
  have hmode : i.mode = o.mode := by simp only [Instr.mode, ho]
  cases o with
  | abx a | aby a | izy z =>
    have hpage : i.tableRow.extra = .page :=
      (extraClass_eq_page_iff _ _).mpr ⟨by simp [hmode, Operand.mode], hm⟩
    rw [hpage]
    exact pageExtra_le _ _ _
  | _ => exact Nat.zero_le _

theorem reportsCycles_base {i : Instr} {t : State} (h : t.cycles = some i.base) : ReportsCycles i t :=
  ⟨0, Nat.zero_le _, h⟩

theorem reportsCycles_read {i : Instr} {o : Operand} {s t : State} (ho : i.operand = some o)
    (hm : i.mnemonic ∉ [Mnemonic.sta, .asl, .lsr, .rol, .ror, .inc, .dec])
    (h : t.cycles = some (i.base + (readOperand o s).extra)) : ReportsCycles i t :=
  ⟨_, resolve_extra_le ho hm s, by rw [h, readOperand_extra]⟩

/-- A branch reports its 2 cycles, and 1 or 2 more when it is taken (R393). -/
theorem branch_reportsCycles {i : Instr} (hbase : i.base = 2) (hmode : i.mode = .rel) (taken : Bool) (d : Byte)
    (s : State) : ∃ t, branch taken d s = .next t ∧ ReportsCycles i t := by
  have hclass : i.tableRow.extra = .branch := (extraClass_eq_branch_iff _ _).mpr hmode
  cases taken with
  | false => exact ⟨_, rfl, reportsCycles_base (by rw [hbase]; rfl)⟩
  | true =>
    refine ⟨_, branch_taken d s, ?_⟩
    rw [ReportsCycles, hbase, hclass, State.setCycles_cycles]
    split
    · exact ⟨2, by decide, rfl⟩
    · exact ⟨1, by decide, rfl⟩

/-- Every defined instruction reports its base count; a reading one adds the page penalty, a branch what it is charged
when taken (R590-R592). -/
theorem exec_reportsCycles {i : Instr} (h : i.mnemonic ≠ .undef) (s : State) : Runs i s (ReportsCycles i) := by
  cases i with
  | lda o | ldx o | ldy o | adc o | sbc o | cmp o | cpx o | cpy o | and o | ora o | eor o | bit o =>
    exact ⟨_, rfl, reportsCycles_read rfl (by simp [Instr.mnemonic]) rfl⟩
  | bpl d | bmi d | bvc d | bvs d | bcc d | bcs d | bne d | beq d =>
    exact branch_reportsCycles (by simp only [Instr.base, opcodeOf]; rfl) rfl _ d s
  | jsr a => exact ⟨_, rfl, reportsCycles_base (by simp only [State.setCycles_cycles, Instr.base, opcodeOf]; rfl)⟩
  | undef op => exact absurd rfl h
  | _ => exact ⟨_, rfl, reportsCycles_base rfl⟩

/-- Settles O14: the class of an instruction's own row says how much it may add to the base count. -/
theorem cycleBounds : Obligations.CycleBounds := by
  intro i s h
  obtain ⟨t, ht, k, hk, hcycles⟩ := exec_reportsCycles h s
  have hle {c : ExtraCycles} (hclass : i.tableRow.extra = c) : k ≤ maxExtra c := hclass ▸ hk
  exact ⟨t, ht, i.base + k, i.tableRow, hcycles, rowOf_opcodeOf h, Nat.le_add_right _ _,
    fun hclass => congrArg (i.base + ·) (Nat.le_zero.mp (hle hclass)),
    fun hclass => Nat.add_le_add_left (hle hclass) _, fun hclass => Nat.add_le_add_left (hle hclass) _⟩

/-- No row of the table is charged less than 2 cycles, or more than 7 with the extra of its class (R591). -/
theorem cycles_of_mem_opcodeRowsOf :
    ∀ hi < 16, ∀ r ∈ opcodeRowsOf hi, 2 ≤ r.cycles ∧ r.cycles + maxExtra r.extra ≤ 7 := by
  decide

theorem cycles_of_rowOf {op : Byte} {r : OpcodeRow} (h : rowOf op = some r) :
    2 ≤ r.cycles ∧ r.cycles + maxExtra r.extra ≤ 7 :=
  cycles_of_mem_opcodeRowsOf _ (Nat.div_lt_of_lt_mul op.isLt) r (List.mem_of_find?_eq_some h)

/-- The count any instruction reports: from 2 to 7, but for UNDEF_CYCLES, which is a parameter (R45, R470). -/
theorem exec_cycles_bounds (i : Instr) (s : State) :
    Runs i s fun t => ∃ n, t.cycles = some n ∧ (s.cfg.undefCycles = 2 → 2 ≤ n ∧ n ≤ 7) := by
  by_cases h : i.mnemonic = .undef
  · rw [eq_undef_of_mnemonic h]
    exact ⟨_, rfl, _, rfl, fun hcfg => by rw [hcfg]; decide⟩
  · obtain ⟨t, ht, k, hk, hcycles⟩ := exec_reportsCycles h s
    obtain ⟨hlo, hhi⟩ := cycles_of_rowOf (rowOf_opcodeOf h)
    exact ⟨t, ht, _, hcycles, fun _ => ⟨Nat.le_add_right_of_le hlo, (Nat.add_le_add_left hk _).trans hhi⟩⟩

/-- Settles O9: the fetch leaves the reset mark and the parameters, and every instruction completes with its count and
keeps the mark. -/
theorem everyStepCompletesAndReportsCycles : Obligations.EveryStepCompletesAndReportsCycles := by
  intro s hr
  have hf := fetchN_readsOnly (encode (fetchInstr (beginStep s)).instr).length (beginStep s)
  have hcfg : (fetchN _ (beginStep s)).cfg = s.cfg := hf.cfg
  obtain ⟨t, ht, n, hcycles, hbounds⟩ := exec_cycles_bounds (fetchInstr (beginStep s)).instr (fetchN _ (beginStep s))
  have hstep := (step_eq hr).trans ht
  exact ⟨t, n, hstep, (step_within hstep).resetDone.trans hr, hcycles, hcfg ▸ hbounds⟩

end Sys2Proof.Machine
end

section
/-! RESET, and what is refused before the first one (R560-R565). -/

namespace Sys2Proof.Machine

open Sys2Proof.Claims

/-- Settles O8: a step and an observation look at the reset mark before anything else. -/
theorem refusedBeforeReset : Obligations.RefusedBeforeReset := by
  intro s h
  have hmark : ¬ s.resetDone = true := by simp [h]
  exact ⟨if_neg hmark, if_neg hmark⟩

/-- RESET up to its vector reads (R560): the registers but PC are written, and the BUS port is empty. -/
def resetRegisters (s : State) : State :=
  let cleared := { s with a := 0, x := 0, y := 0, sp := s.cfg.resetSp, bus := [], cycles := none, resetDone := true }
  cleared.writeP s.cfg.resetP

theorem performReset_eq (s : State) :
    performReset s =
      (read16 (resetRegisters s) s.cfg.resetVector).st.setPc (read16 (resetRegisters s) s.cfg.resetVector).value := rfl

/-- Settles O25: the vector reads are one `Read16`, which leaves all that RESET wrote before it. -/
theorem resetSequence : Obligations.ResetSequence := by
  unfold Obligations.ResetSequence
  simp only [performReset_eq]
  intro s
  have hr := read16_readsOnly (resetRegisters s) s.cfg.resetVector
  obtain ⟨lo, hi, hvalue, hbus, hlo, hhi⟩ := read16_spec (resetRegisters s) s.cfg.resetVector
  rw [hvalue]
  refine ⟨lo, hi, rfl, hr.p, hbus, hlo, hhi, hr.mem, hr.cfg, hr.diag, hr.cycles, hr.resetDone, fun hcfg => ?_⟩
  have hsp : (read16 (resetRegisters s) s.cfg.resetVector).st.sp = s.cfg.resetSp := hr.sp
  have hp : (read16 (resetRegisters s) s.cfg.resetVector).st.p = s.cfg.resetP ||| 0x20 := hr.p
  rw [State.setPc_sp, State.setPc_p, hsp, hp, hcfg]
  decide

/-- Settles O26: with no address intercepted and nothing in memory, both vector reads answer the byte that an unlisted
address reads as. -/
theorem resetStateIsAResetMachine : Obligations.ResetStateIsAResetMachine := rfl

end Sys2Proof.Machine
end
